-- ==== Sys2Proof/Word.lean ====
section
/-! DEFINITION. The words of the part: what the host bus, the highway and the buffers carry, and the numbers of its
channels and blocks. -/

namespace Sys2Proof

/-- A register word of the host window (spec 10, R174). -/
abbrev Word := BitVec 16

/-- A message byte. -/
abbrev Byte := BitVec 8

/-- The 11 bits of a slot word in the order they go out: T1 is the most significant bit, P the least (spec 01, R4). -/
abbrev SlotWord := BitVec 11

/-- A channel number (spec 00, section 0.5). -/
abbrev Chan := Fin 8

/-- A slot number (spec 03, R41). -/
abbrev SlotNo := Fin 32

/-- A block of the receive pool (spec 06, R100). -/
abbrev BlockNo := Fin 128

end Sys2Proof
end

