-- ==== Sys2Proof/Config.lean ====
section
/-! DEFINITION. What the manual leaves open: free values without a body, and the value an unwritten byte of the pool
reads as. -/

namespace Sys2Proof

/-- FREE VALUE (log entry 4). The order in which happenings that fall together in one step are taken, as a number that
`permute` turns into an order; it is read at the model's own counter `State.arb`. -/
opaque Config.order : Nat → Nat

/-- FREE VALUE (log entry 12). Whether the restart test that a disable left outstanding (spec 05, R93) is still made when
the host has set tx_enable again before the slot's echo; it is read at `State.arb`. -/
opaque Config.testAfterReenable : Nat → Bool

/-- DESIGN CHOICE, unsafe (log entry 11). What a byte of the pool that nothing has written reads as (spec 06, R100 gives
no value). -/
def Config.poolByte : Byte := 0

end Sys2Proof
end

