-- ==== Sys2Proof/Syntax.lean ====
section
/-! DEFINITION. The commands that reach the part, one constructor per row of spec/opcode_table.json. -/

namespace Sys2Proof

/-- A command: a host access, an edge or level on a pin, or a happening of the part's own clocks. A host write carries the
16-bit word written. -/
inductive Instr where
  /-- RESET_ASSERT: RESETn goes low (R172). -/
  | resetAssert
  /-- RESET_RELEASE: RESETn goes high (R172). -/
  | resetRelease
  /-- SOFT_RESET: COMMAND code 0x0F (R173). -/
  | softReset
  /-- COMMIT: COMMAND code 0x01 (R46). -/
  | commit
  /-- CANCEL: COMMAND code 0x02 (R51). -/
  | cancel
  /-- TIMING_RESTART: COMMAND code 0x03 (R22). -/
  | timingRestart
  /-- RELEASE: COMMAND code 0x04 (R134). -/
  | release
  /-- FLUSH(c): COMMAND codes 0x10 to 0x17 (R68). -/
  | flush (c : Chan)
  /-- HOST_PAUSE(c): COMMAND codes 0x20 to 0x27 (R144). -/
  | hostPause (c : Chan)
  /-- HOST_RESUME(c): COMMAND codes 0x28 to 0x2F (R144). -/
  | hostResume (c : Chan)
  /-- UNKNOWN_COMMAND: a COMMAND write with a code that names no command (R176). -/
  | unknownCommand (code : BitVec 8)
  /-- TIMING_ENABLE: a TIMCFG write whose word carries enable 1 (R20). -/
  | timingEnable (w : Word)
  /-- TIMING_DISABLE: a TIMCFG write whose word carries enable 0 (R21). -/
  | timingDisable (w : Word)
  /-- RX_ENABLE_SET: a CHCFG0 write whose word carries rx_enable 1 (R123). -/
  | rxEnableSet (w : Word)
  /-- RX_ENABLE_CLEAR: a CHCFG0 write whose word carries rx_enable 0 (R123). -/
  | rxEnableClear (w : Word)
  /-- TX_ENABLE_SET: a CHCFG0 write whose word carries tx_enable 1 (R94). -/
  | txEnableSet (w : Word)
  /-- TX_ENABLE_CLEAR: a CHCFG0 write whose word carries tx_enable 0 (R93). -/
  | txEnableClear (w : Word)
  /-- FC_ENABLE_SET: a CHCFG0 write whose word carries fc_enable 1 (R153). -/
  | fcEnableSet (w : Word)
  /-- FC_ENABLE_CLEAR: a CHCFG0 write whose word carries fc_enable 0 (R153). -/
  | fcEnableClear (w : Word)
  /-- CHCFG_WRITE: a write to word CHCFGn of the selected channel (R61). -/
  | chcfgWrite (n : Fin 8) (w : Word)
  /-- TXDATA: a write to TXDATA(c) (R78). -/
  | txdata (c : Chan) (w : Word)
  /-- MAPDATA_WRITE (R44). -/
  | mapdataWrite (w : Word)
  /-- MAPDATA_READ (R43). -/
  | mapdataRead
  /-- MAPHDR_WRITE (R45). -/
  | maphdrWrite (w : Word)
  /-- RXDATA_READ (R132). -/
  | rxdataRead
  /-- RXOFFSET_WRITE (R133). -/
  | rxoffsetWrite (w : Word)
  /-- CAUSE_READ (R163). -/
  | causeRead
  /-- CHSTICKY_WRITE (R76). -/
  | chstickyWrite (w : Word)
  /-- CMDSTAT_WRITE (R178). -/
  | cmdstatWrite (w : Word)
  /-- POOLCFG_WRITE (R105). -/
  | poolcfgWrite (w : Word)
  /-- RINGCFG_WRITE (R136). -/
  | ringcfgWrite (w : Word)
  /-- REGISTER_WRITE: a write at the word offset `off` of the register window (R174). -/
  | registerWrite (off : BitVec 6) (w : Word)
  /-- SYNC_PULSE: the timing unit takes the sync pulse that the latest rising edge showed (R18). -/
  | syncPulse
  /-- FRAME_BOUNDARY: the frame in progress ends with every slot worked; `pulse` says whether a sync pulse stands at the
  expected position that begins here (R36, R27, R28). -/
  | frameBoundary (pulse : Bool)
  /-- LOCAL_FRAME_PERIOD_END: a local frame period ends, with the raw HWSENSE level at that moment (R17, R32). -/
  | localFramePeriodEnd (sense : Bool)
  /-- TX_SLOT: the first bit of the TX slot in progress (R81). -/
  | txSlot
  /-- ECHO_RESULT: the end of the TX slot in progress (R11). -/
  | echoResult
  /-- RX_WORD: the end of the RX slot in progress (R13). -/
  | rxWord
  /-- LISTEN_WINDOW: the listen counter reaches 2 (R23). -/
  | listenWindow
  /-- HOLDOFF_LIMIT: the standby holdoff counter reaches its limit (R31). -/
  | holdoffLimit
  /-- FLYWHEEL_EXPIRY: the flywheel counter has reached the flywheel limit (R30). -/
  | flywheelExpiry
  /-- CLOCK_LOST: no rising edge of HWCLK in a whole local frame period in LOCKED (R28). -/
  | clockLost
  /-- DEBOUNCE_COMPLETE: the sample that brings the debounce counter to 8 (R32). -/
  | debounceComplete
  /-- GAP_EXPIRY: the gap counter of channel c reaches gap_limit at a frame boundary (R120). -/
  | gapExpiry (c : Chan)
  /-- REFRESH: the refresh counter of channel c reaches P at a frame boundary (R147). -/
  | refresh (c : Chan)
  /-- HOLD_EXPIRED: the hold counter of channel c reaches H at a frame boundary (R154). -/
  | holdExpired (c : Chan)
  /-- PEER_ABSENT: the silence counter of a PRESENT channel c reaches 8 at a frame boundary (R73). -/
  | peerAbsent (c : Chan)
  /-- READY_TIMEOUT: the ready timer reaches the ready timeout at a frame boundary (R138). -/
  | readyTimeout
  /-- SWITCH: a pending commit completes (R49). -/
  | switch
  /-- HWCLK_RISING_EDGE: a rising edge of HWCLK, with the HWSYNC and HWDATA levels sampled at it (R2, R28). -/
  | hwclkRisingEdge (sync data : Bool)
  deriving DecidableEq, Repr

end Sys2Proof
end

