-- ==== Sys2Proof/Machine/State.lean ====
section
/-! DEFINITION. The state of the part as plain data: every register, counter, flag, buffer, list and mode the spec gives a
block, with its value after hard reset, and the queue of the commands that wait. -/

namespace Sys2Proof.Machine

open Sys2Proof

/-! ## Timing unit (spec 02) -/

/-- The timing roles (R16). -/
inductive Role where
  | follower | master | standby
  deriving DecidableEq, Repr

/-- The six timing states (spec 02, section 2.4). -/
inductive TimState where
  | off | listen | driving | search | locked | flywheel
  deriving DecidableEq, Repr

/-- The last loss cause (R38). -/
inductive LossCause where
  | none | sync | line | slip | conflict
  deriving DecidableEq, Repr

/-- The timing unit's configuration, state, alignments, marks and counters (spec 02, section 2.1; values of R40). -/
structure Timing where
  role : Role := .follower
  rank : Fin 8 := 0
  limit : Nat := 4
  refdiv : Nat := 100
  enable : Bool := false
  st : TimState := .off
  align : Option Nat := .none
  cand : Option Nat := .none
  bridge : Bool := false
  edgeMark : Bool := false
  listenCnt : Nat := 0
  holdoffCnt : Nat := 0
  flyCnt : Nat := 0
  lineUp : Bool := false
  debounce : Nat := 0
  deferred : Bool := false
  loss : LossCause := .none
  yielded : Bool := false
  frameCnt : Word := 0
  /-- The count of rising edges of HWCLK by which positions are measured (R18). -/
  pos : Nat := 0
  /-- The HWSYNC level at the previous rising edge; none before the first edge after OFF (R3). -/
  lastSync : Option Bool := .none
  /-- The latest rising edge showed a sync pulse that has not been taken yet (R3). -/
  pulse : Bool := false
  deriving DecidableEq, Repr

/-- The local frame generator (R17): the length in REFCLK periods of the local bit period in progress and how many of them
have passed, and the frame length of the local frame period in progress and how many of its bit periods have passed. -/
structure Generator where
  div : Nat := 100
  ref : Nat := 0
  len : Nat := 32
  bit : Nat := 0
  deriving DecidableEq, Repr

/-! ## Slot map (spec 03) -/

/-- The mode of a map entry (R41). -/
inductive SlotMode where
  | unused | tx | rx
  deriving DecidableEq, Repr

/-- One entry of a bank (R41). -/
structure MapEntry where
  mode : SlotMode := .unused
  chan : Chan := 0
  deriving DecidableEq, Repr

/-- One bank: the header's length code and the 32 entries (R41; values of R58). -/
structure Bank where
  len : Fin 4 := 3
  entries : Vector MapEntry 32 := Vector.replicate 32 {}
  deriving DecidableEq, Repr

/-- The commit state (R48). -/
inductive CommitState where
  | idle | pending
  deriving DecidableEq, Repr

/-- The last commit result (R52). -/
inductive CommitResult where
  | none | done | refused | cancelled
  deriving DecidableEq, Repr

/-- The reasons CMDSTAT and MAPSTAT show (R177, R52), with the codes of section 10.7 in their order. -/
inductive Reason where
  | none | busy | nothingPending | empty | notRunning | unknown | lengthLocked | slotBeyondFrame | noReturnPath
  deriving DecidableEq, Repr

/-- The map unit (spec 03, section 3.1; values of R58). -/
structure MapUnit where
  shadow : Bank := {}
  active : Bank := {}
  commit : CommitState := .idle
  result : CommitResult := .none
  reason : Reason := .none
  detail : Nat := 0
  selActive : Bool := false
  index : SlotNo := 0
  autoInc : Bool := false
  deriving DecidableEq, Repr

/-! ## Slot engine (spec 01) -/

/-- The slot in progress (R8). -/
structure Slot where
  number : Nat
  entry : MapEntry
  /-- The work done in the slot: the entry's mode, or UNUSED in a late slot 0 that the entry would send in (R8). -/
  work : SlotMode
  /-- In a TX slot, the word being driven, once it is chosen. -/
  word : Option SlotWord
  /-- The HWDATA samples of the slot so far, the first first. -/
  bits : List Bool
  deriving DecidableEq, Repr

/-- How long HWDATA stays pulled after its slot was abandoned (R15): not at all, to the next bit period of the local generator,
which made the clock while the part drove, or to the next bit period of HWCLK. `periodEnded` says of the latter that a local
frame period has ended since (log entry 25). -/
inductive DataHold where
  | released
  | toLocalBit
  | toLineBit (periodEnded : Bool)
  deriving DecidableEq, Repr

/-- What the slot engine is doing (R8): nothing, a slot, or standing at the end of a frame with every slot worked. -/
inductive SlotPhase where
  | idle
  | inSlot (x : Slot)
  | frameDone
  deriving DecidableEq, Repr

/-! ## Channels (spec 04) -/

/-- The configuration of a channel record (R59). -/
structure ChanCfg where
  rx : Bool := false
  tx : Bool := false
  fc : Bool := false
  quota : Nat := 16
  hw : Nat := 12
  lw : Nat := 4
  maxLen : Nat := 256
  gapLimit : Nat := 16
  p : Nat := 4
  h : Nat := 16
  restartLimit : Nat := 3
  collLimit : Nat := 4
  spaceLevel : Nat := 256
  deriving DecidableEq, Repr

/-- Peer presence of a channel (R73). -/
structure Peer where
  present : Bool := false
  silence : Nat := 0
  mark : Bool := false
  deriving DecidableEq, Repr

/-- The sticky flags of a channel (R75). -/
structure Sticky where
  parity : Bool := false
  unknownCtrl : Bool := false
  txOverflow : Bool := false
  strayEcho : Bool := false
  starved : Bool := false
  deriving DecidableEq, Repr

/-! ## Transmit unit (spec 05) -/

/-- One record of the message list with its bytes; its length is theirs (R77). -/
structure TxRecord where
  bytes : List Byte
  closed : Bool
  poisoned : Bool
  deriving DecidableEq, Repr

/-- The kind of the word in flight; a message word records the offset it was taken at (R82). -/
inductive TxKind where
  | idle
  | data (off : Nat)
  | last (off : Nat)
  | abort
  | pause
  | resume
  deriving DecidableEq, Repr

/-- The word in flight; `orphan` says that FLUSH has removed the head it was taken from (R72, R91). -/
structure TxFlight where
  kind : TxKind
  orphan : Bool
  deriving DecidableEq, Repr

/-- The last drop reason, also the detail of TX_DROPPED (R98, R165). -/
inductive DropReason where
  | none | restarts | overflow
  deriving DecidableEq, Repr

/-- A transmit unit (spec 05, section 5.1; values of R99). The head is the first record; `sending` is its state. -/
structure TxUnit where
  records : List TxRecord := []
  lone : Bool := false
  sending : Bool := false
  offset : Nat := 0
  flight : Option TxFlight := .none
  /-- The host cleared tx_enable while this unit's slot was in progress, so the restart test waits for the echo (R93). -/
  testDue : Bool := false
  abortOwed : Bool := false
  dropAfter : Bool := false
  r : Nat := 0
  coll : Nat := 0
  lastDrop : DropReason := .none
  deriving DecidableEq, Repr

/-! ## Receive unit, pool and ring (spec 06, 07) -/

/-- The receive states (R108). -/
inductive RxState where
  | idle | opened | truncating | overrun | starved
  deriving DecidableEq, Repr

/-- A receive unit (spec 06, section 6.3; values of R126). -/
structure RxUnit where
  st : RxState := .idle
  first : Option BlockNo := .none
  cur : Option BlockNo := .none
  fill : Nat := 0
  len : Nat := 0
  damaged : Bool := false
  gap : Nat := 0
  seen : Bool := false
  seq : BitVec 8 := 0
  deriving DecidableEq, Repr

/-- The block pool: its 4096 bytes (byte p of block b at address 32*b + p), the link table, the free list, POOLCFG and
the pool-low condition (R100, R105, R106; values of R126). -/
structure Pool where
  mem : List Host.Cell := []
  links : Vector (Option BlockNo) 128 := Vector.replicate 128 .none
  free : List BlockNo := List.finRange 128
  reserve : Nat := 8
  hyst : Nat := 8
  low : Bool := false
  deriving DecidableEq, Repr

/-- The status of an ended message, with the codes of section 10.7 in their order (R115, R130). -/
inductive MsgStatus where
  | ok | gap | sync | unmapped | truncated | overrun
  deriving DecidableEq, Repr

/-- A descriptor (R130). -/
structure Descriptor where
  chan : Chan
  seq : BitVec 8
  status : MsgStatus
  damaged : Bool
  length : Nat
  first : Option BlockNo
  stamp : Word
  deriving DecidableEq, Repr

/-- The descriptor ring, its head first (spec 07, section 7.1; values of R141). -/
structure Ring where
  entries : List Descriptor := []
  reserved : Nat := 0
  readOff : Nat := 0
  threshold : Nat := 1
  timeout : Nat := 0
  timer : Nat := 0
  deriving DecidableEq, Repr

/-! ## Flow unit (spec 08) -/

/-- A flow word (R6). -/
inductive FlowWord where
  | pause | resume
  deriving DecidableEq, Repr

/-- A flow unit (spec 08, section 8.1; values of R158). -/
structure FlowUnit where
  quota : Bool := false
  pool : Bool := false
  host : Bool := false
  asserted : Bool := false
  pauseOwed : Bool := false
  resumeOwed : Bool := false
  flight : Option FlowWord := .none
  refresh : Nat := 0
  held : Bool := false
  holdCnt : Nat := 0
  deriving DecidableEq, Repr

/-- All that belongs to one channel: its record, its transmit, receive and flow units, and its held count (R101). -/
structure Channel where
  cfg : ChanCfg := {}
  peer : Peer := {}
  sticky : Sticky := {}
  tx : TxUnit := {}
  rx : RxUnit := {}
  fl : FlowUnit := {}
  held : Nat := 0
  deriving DecidableEq, Repr

/-! ## Event unit (spec 09) -/

/-- The 59 event sources (R159). -/
inductive Source where
  | masterYielded | syncLost | lineDown | slip | tookOver | masterActive | locked | lineUp
  | txShutdown (c : Chan)
  | txDropped (c : Chan)
  | rxStarved (c : Chan)
  | rxReady
  | commitRefused | commitDone
  | txSpace (c : Chan)
  | holdExpired (c : Chan)
  | peerChange (c : Chan)
  deriving DecidableEq, Repr

/-- The event unit: flags by the source's place in presentation order (R160, R162; values of R170). The flags of the
conditional sources are not used: they follow their conditions (R161). -/
structure EventUnit where
  latched : Vector Bool 59 := Vector.replicate 59 false
  enable : Vector Bool 59 := Vector.replicate 59 false
  dropDetail : Vector DropReason 8 := Vector.replicate 8 .none
  refusedDetail : Reason := .none
  inten : Bool := false
  page : Bool := false
  deriving DecidableEq, Repr

/-! ## Host port (spec 10) -/

/-- The result CMDSTAT shows (R177). -/
inductive CmdResult where
  | none | done | pending | refused
  deriving DecidableEq, Repr

/-- The command-status record (R177). -/
structure CmdRecord where
  result : CmdResult := .none
  reason : Reason := .none
  code : BitVec 8 := 0
  deriving DecidableEq, Repr

/-! ## The host bus (spec 10, section 10.4) -/

/-- The levels of the host bus lines, high as true, with the address and the data levels the host puts on A5-A0 and D15-D0,
and the two marks of a strobe in progress (R174). -/
structure HostBus where
  csn : Bool := true
  rdn : Bool := true
  wrn : Bool := true
  addr : BitVec 6 := 0
  data : Word := 0
  /-- The read of the RDn strobe in progress was taken at its falling edge. -/
  reading : Bool := false
  /-- RDn and WRn have been low at once in the strobes in progress. -/
  clash : Bool := false
  deriving DecidableEq, Repr

/-- A change of one input line by the outside, to a level (high as true) or to values of the bus (R38, R174), or a falling edge
of HWCLK, which begins a bit period (R2). -/
inductive PinChange where
  | csn (high : Bool)
  | rdn (high : Bool)
  | wrn (high : Bool)
  | address (a : BitVec 6)
  | data (w : Word)
  | sense (high : Bool)
  | hwclkFalls
  deriving DecidableEq, Repr

/-! ## The whole part -/

/-- The state of the part and the queue of waiting commands. -/
structure State where
  /-- The commands that wait, the front first. -/
  pending : List Instr := []
  /-- The changes of input lines that wait, the front first; a step with no command waiting takes one (log entry 1). -/
  inputs : List PinChange := []
  /-- The lines of the host bus (R174). -/
  bus : HostBus := {}
  /-- RESETn: false while it is low (R172). -/
  resetn : Bool := true
  /-- The raw HWSENSE level as it stands on the pin (R32, R38). -/
  hwsense : Bool := false
  /-- HWCLK has fallen since the latest rising edge taken, so the bit period that the next one samples has begun (R2). -/
  hwclkLow : Bool := false
  /-- Whether the part still pulls HWDATA low for the rest of the bit period in which its slot was abandoned, and which clock
  times that bit period (R15). -/
  dataHeld : DataHold := .released
  /-- HWDATA as sampled at the latest rising edge of HWCLK (R2, R8). -/
  dataSample : Bool := true
  /-- The value formed by the last read taken; `State.dataPins` says while it stands on D15-D0 (R174). -/
  readData : Word := 0
  cmd : CmdRecord := {}
  cfgReject : Bool := false
  mapBusy : Bool := false
  chsel : Chan := 0
  tim : Timing := {}
  gen : Generator := {}
  slot : SlotPhase := .idle
  map : MapUnit := {}
  chans : Vector Channel 8 := Vector.replicate 8 {}
  pool : Pool := {}
  ring : Ring := {}
  ev : EventUnit := {}
  /-- The model's own count of open choices taken; the free values are read at it (log entry 4). -/
  arb : Nat := 0
  deriving DecidableEq, Repr

/-- Why a step of the part stops. -/
inductive Fault where
  /-- Raised by RXDATA_READ when the head's chain holds fewer blocks than the read offset needs, which no run of the part
  reaches (R130 gives a chain of length/32 blocks, rounded up). SAFE: the model stops where the spec gives no byte. -/
  | chainBroken
  deriving DecidableEq, Repr

/-- Why a command is refused by the model. -/
inductive Refusal where
  /-- Raised by `exec` for a row that has no meaning yet; no row is left. SAFE: nothing is claimed of such a row. -/
  | notModelled (mnemonic : String)
  deriving DecidableEq, Repr

/-- The part right after hard reset, with RESETn high again: every value of R40, R58, R59, R60, R74, R76, R99, R126, R141,
R158, R170 and R172 (the fields' defaults), and an empty queue. -/
def State.reset : State := {}

end Sys2Proof.Machine
end

