-- ==== Sys2Proof/Machine/Ops.lean ====
section
/-! DEFINITION. Named access to the state: the channels, the bytes of the pool, the gate of RESETn, and happenings that
fall together. -/

namespace Sys2Proof.Machine

open Sys2Proof

/-! ## Channels -/

/-- The eight channels in rising order. -/
def channels : List Chan := [0, 1, 2, 3, 4, 5, 6, 7]

/-- All that belongs to channel c. -/
def State.chan (s : State) (c : Chan) : Channel := s.chans.get c

/-- The state with channel c replaced. -/
def State.setChan (s : State) (c : Chan) (x : Channel) : State := { s with chans := s.chans.set c x }

/-- The state with transmit unit c replaced. -/
def State.setTx (s : State) (c : Chan) (u : TxUnit) : State := s.setChan c { s.chan c with tx := u }

/-- The state with receive unit c replaced. -/
def State.setRx (s : State) (c : Chan) (u : RxUnit) : State := s.setChan c { s.chan c with rx := u }

/-- The state with flow unit c replaced. -/
def State.setFl (s : State) (c : Chan) (u : FlowUnit) : State := s.setChan c { s.chan c with fl := u }

/-- The state with the configuration of channel c replaced. -/
def State.setCfg (s : State) (c : Chan) (g : ChanCfg) : State := s.setChan c { s.chan c with cfg := g }

/-- The state with peer presence of channel c replaced. -/
def State.setPeer (s : State) (c : Chan) (p : Peer) : State := s.setChan c { s.chan c with peer := p }

/-- The state with the sticky flags of channel c replaced. -/
def State.setSticky (s : State) (c : Chan) (k : Sticky) : State := s.setChan c { s.chan c with sticky := k }

/-! ## The bytes of the pool -/

/-- What the byte at address a reads as: the listed value, or `Config.poolByte` (R100; log entry 11). -/
def Memory.read : List Host.Cell → Nat → Byte
  | [], _ => Config.poolByte
  | (k, v) :: rest, a => if k = a then v else Memory.read rest a

/-- Put a cell into a list of strictly rising addresses; an entry equal to what an unlisted address reads as is left
out. -/
def Memory.write : List Host.Cell → Nat → Byte → List Host.Cell
  | [], a, b => if b = Config.poolByte then [] else [(a, b)]
  | (k, v) :: rest, a, b =>
    if a < k then (if b = Config.poolByte then (k, v) :: rest else (a, b) :: (k, v) :: rest)
    else if a = k then (if b = Config.poolByte then rest else (a, b) :: rest)
    else (k, v) :: Memory.write rest a b

/-- Every address of the list is above a. -/
def Memory.allAbove (a : Nat) (m : List Host.Cell) : Bool := m.all fun cell => decide (a < cell.1)

/-- The canonical form: addresses strictly rising, and no entry equal to what an unlisted address reads as. -/
def Memory.wf : List Host.Cell → Bool
  | [] => true
  | (k, v) :: rest => decide (v ≠ Config.poolByte) && Memory.allAbove k rest && Memory.wf rest

/-- The address of byte p of block b (R100). -/
def blockAddr (b : BlockNo) (p : Nat) : Nat := 32 * b.val + p

/-- The byte at position p of block b. -/
def State.poolByte (s : State) (b : BlockNo) (p : Nat) : Byte := Memory.read s.pool.mem (blockAddr b p)

/-- Write the byte at position p of block b. -/
def State.writePoolByte (s : State) (b : BlockNo) (p : Nat) (v : Byte) : State :=
  { s with pool := { s.pool with mem := Memory.write s.pool.mem (blockAddr b p) v } }

/-! ## Reset gate and read data -/

/-- Host accesses and happenings act only while RESETn is high: while it is low the part holds its hard-reset state
(R172). -/
def outOfReset (f : State → State) (s : State) : State := if s.resetn then f s else s

/-- The value of a read is formed, to be driven on D15-D0 for the strobe (R174). -/
def State.driveData (s : State) (v : Word) : State := { s with readData := v }

/-- CFG_REJECT is set by every rejected configuration write (R178). -/
def reject (s : State) : State := { s with cfgReject := true }

/-- MAP_BUSY is set by a map write ignored because a commit is pending (R178). -/
def mapIgnored (s : State) : State := { s with mapBusy := true }

/-! ## Happenings that fall together (log entry 4) -/

/-- Put a at place k of a list (at its end when k is past it). -/
def insertAt {α : Type} : List α → Nat → α → List α
  | [], _, a => [a]
  | b :: bs, k, a => if k = 0 then a :: b :: bs else b :: insertAt bs (k - 1) a

/-- The order of a list that the number n stands for: every order of the list is one for some n. -/
def permute {α : Type} : Nat → List α → List α
  | _, [] => []
  | n, a :: l => insertAt (permute (n / (l.length + 1)) l) (n % (l.length + 1)) a

/-- Take happenings one after the other. -/
def takeAll (acts : List (State → State)) (s : State) : State := acts.foldl (fun t f => f t) s

/-- Take happenings that fall together in one step. Where their order is open (spec 02 R39, 03 R54 and R55, 07 R129 and
R137), a free value picks it; where it makes no difference they are taken as listed. -/
def takeTogether (isOpen : Bool) (acts : List (State → State)) (s : State) : State :=
  if isOpen then takeAll (permute (Config.order s.arb) acts) { s with arb := s.arb + 1 }
  else takeAll acts s

end Sys2Proof.Machine
end

