-- ==== Sys2Proof/Machine/Operands.lean ====
section
/-! DEFINITION. Operand forms: the fields of register words (spec 10, section 10.7), the codes of their values, and the
slot words of the highway (spec 01, R4 to R7). -/

namespace Sys2Proof.Machine

open Sys2Proof

/-! ## Fields of a register word -/

/-- The field of `len` bits whose lowest bit is `lo`. -/
def field (w : Word) (lo len : Nat) : Nat := w.toNat / 2 ^ lo % 2 ^ len

/-- Bit i of a word. -/
def wbit (w : Word) (i : Nat) : Bool := w.getLsbD i

/-- A flag as 0 or 1. -/
def flagNat (b : Bool) : Nat := if b then 1 else 0

/-- The word with each value placed at its lowest bit; positions without a field read 0 (R179). -/
def packWord (fs : List (Nat × Nat)) : Word := BitVec.ofNat 16 (fs.foldl (fun acc f => acc + f.2 * 2 ^ f.1) 0)

/-- The low byte of a word (TXDATA, R78). -/
def lowByte (w : Word) : Byte := w.setWidth 8

/-- A field of three bits as a channel. -/
def chanField (w : Word) (lo : Nat) : Chan := ⟨field w lo 3 % 8, Nat.mod_lt _ (by decide)⟩

/-! ## Codes (section 10.7) -/

/-- Role of a TIMCFG word: code 3 names none (R179). -/
def roleOfCode : Nat → Option Role
  | 0 => some .follower
  | 1 => some .master
  | 2 => some .standby
  | _ => none

/-- The code of a role. -/
def Role.code : Role → Nat
  | .follower => 0
  | .master => 1
  | .standby => 2

/-- The code of a timing state. -/
def TimState.code : TimState → Nat
  | .off => 0
  | .listen => 1
  | .driving => 2
  | .search => 3
  | .locked => 4
  | .flywheel => 5

/-- The code of a loss cause. -/
def LossCause.code : LossCause → Nat
  | .none => 0
  | .sync => 1
  | .line => 2
  | .slip => 3
  | .conflict => 4

/-- Mode of a MAPDATA word: code 3 names none (R44). -/
def modeOfCode : Nat → Option SlotMode
  | 0 => some .unused
  | 1 => some .tx
  | 2 => some .rx
  | _ => none

/-- The code of a mode. -/
def SlotMode.code : SlotMode → Nat
  | .unused => 0
  | .tx => 1
  | .rx => 2

/-- The code of a commit state. -/
def CommitState.code : CommitState → Nat
  | .idle => 0
  | .pending => 1

/-- The code of a commit result. -/
def CommitResult.code : CommitResult → Nat
  | .none => 0
  | .done => 1
  | .refused => 2
  | .cancelled => 3

/-- The code of a reason. -/
def Reason.code : Reason → Nat
  | .none => 0
  | .busy => 1
  | .nothingPending => 2
  | .empty => 3
  | .notRunning => 4
  | .unknown => 5
  | .lengthLocked => 6
  | .slotBeyondFrame => 7
  | .noReturnPath => 8

/-- The code of a command result. -/
def CmdResult.code : CmdResult → Nat
  | .none => 0
  | .done => 1
  | .pending => 2
  | .refused => 3

/-- The code of a drop reason. -/
def DropReason.code : DropReason → Nat
  | .none => 0
  | .restarts => 1
  | .overflow => 2

/-- The code of a receive state. -/
def RxState.code : RxState → Nat
  | .idle => 0
  | .opened => 1
  | .truncating => 2
  | .overrun => 3
  | .starved => 4

/-- The code of a descriptor status. -/
def MsgStatus.code : MsgStatus → Nat
  | .ok => 0
  | .gap => 1
  | .sync => 2
  | .unmapped => 3
  | .truncated => 4
  | .overrun => 5

/-! ## Slot words (R4 to R7, R12) -/

/-- The tags of a slot word (R5). -/
inductive Tag where
  | idle | data | last | ctrl
  deriving DecidableEq, Repr

/-- The two bits of a tag, T1 high (R5). -/
def Tag.bits : Tag → BitVec 2
  | .idle => 0
  | .data => 1
  | .last => 2
  | .ctrl => 3

/-- The tag that two bits name (R5). -/
def tagOf (t : BitVec 2) : Tag :=
  if t = 0 then .idle else if t = 1 then .data else if t = 2 then .last else .ctrl

/-- How many bits of a slot word are 1. -/
def onesCount (w : SlotWord) : Nat := (List.range 11).countP fun i => w.getLsbD i

/-- The word the 832 sends: tag, payload, and the parity bit that makes the count of ones even (R4). -/
def buildWord (t : Tag) (payload : Byte) : SlotWord :=
  let ten : BitVec 10 := t.bits ++ payload
  let odd := onesCount (ten.setWidth 11) % 2 = 1
  ten ++ (if odd then 1#1 else 0#1)

/-- The control codes (R6). -/
def codePause : Byte := 0x3C
/-- The control code RESUME (R6). -/
def codeResume : Byte := 0xC3
/-- The control code ABORT (R6). -/
def codeAbort : Byte := 0x5A

/-- The nine classes of a received word (R12). -/
inductive RxClass where
  | silent
  | corrupt
  | idle
  | data (b : Byte)
  | last (b : Byte)
  | pause
  | resume
  | abort
  | unknownCtrl
  deriving DecidableEq, Repr

/-- The payload bits D7 to D0 of a slot word (R4). -/
def payloadOf (w : SlotWord) : Byte := w.extractLsb' 1 8

/-- The tag bits of a slot word (R4). -/
def tagBitsOf (w : SlotWord) : BitVec 2 := w.extractLsb' 9 2

/-- The classification of R12, in its order: SILENT, corrupt, then by tag and control code. -/
def classify (w : SlotWord) : RxClass :=
  if w = BitVec.allOnes 11 then .silent
  else if onesCount w % 2 = 1 then .corrupt
  else
    match tagOf (tagBitsOf w) with
    | .idle => .idle
    | .data => .data (payloadOf w)
    | .last => .last (payloadOf w)
    | .ctrl =>
      if payloadOf w = codePause then .pause
      else if payloadOf w = codeResume then .resume
      else if payloadOf w = codeAbort then .abort
      else .unknownCtrl

/-- The bits of a slot word in the order they go out: T1 first, P last (R4). -/
def wordBits (w : SlotWord) : List Bool := (List.range 11).map fun i => w.getMsbD i

/-- The word that eleven samples make, the first sample its most significant bit (R4). -/
def wordOfBits (bits : List Bool) : SlotWord :=
  bits.foldl (fun w b => (w <<< 1) ||| (if b then 1 else 0)) 0

end Sys2Proof.Machine
end

