-- ==== Sys2Proof/Machine/Flags.lean ====
section
/-! DEFINITION. The event unit's flags (spec 09): the sources and their places, raising, the conditional sources, the
cause word and its acknowledgement, the PEND and ENABLE words, and INTn. -/

namespace Sys2Proof.Machine

open Sys2Proof

/-! ## Sources in presentation order -/

/-- The place of a source in presentation order: by level, then by channel, then by source code (R162). -/
def Source.place : Source → Fin 59
  | .masterYielded => 0
  | .syncLost => 1
  | .lineDown => 2
  | .slip => 3
  | .tookOver => 4
  | .masterActive => 5
  | .locked => 6
  | .lineUp => 7
  | .txShutdown c => ⟨8 + 3 * c.val, by omega⟩
  | .txDropped c => ⟨9 + 3 * c.val, by omega⟩
  | .rxStarved c => ⟨10 + 3 * c.val, by omega⟩
  | .rxReady => 32
  | .commitRefused => 33
  | .commitDone => 34
  | .txSpace c => ⟨35 + c.val, by omega⟩
  | .holdExpired c => ⟨43 + 2 * c.val, by omega⟩
  | .peerChange c => ⟨44 + 2 * c.val, by omega⟩

/-- The eight sources of level 1 by source code (R159). -/
def timingSources : List Source :=
  [.masterYielded, .syncLost, .lineDown, .slip, .tookOver, .masterActive, .locked, .lineUp]

/-- The 59 sources in presentation order (R162). -/
def allSources : List Source :=
  timingSources
    ++ channels.flatMap (fun c => [.txShutdown c, .txDropped c, .rxStarved c])
    ++ [.rxReady]
    ++ [.commitRefused, .commitDone]
    ++ channels.map .txSpace
    ++ channels.flatMap (fun c => [.holdExpired c, .peerChange c])

/-- The level of a source (R159). -/
def Source.level : Source → Nat
  | .masterYielded | .syncLost | .lineDown | .slip | .tookOver | .masterActive | .locked | .lineUp => 1
  | .txShutdown _ | .txDropped _ | .rxStarved _ => 2
  | .rxReady => 3
  | .commitRefused | .commitDone => 4
  | .txSpace _ => 5
  | .holdExpired _ | .peerChange _ => 6

/-- The source code of a source within its level (R159). -/
def Source.code : Source → Nat
  | .masterYielded => 0
  | .syncLost => 1
  | .lineDown => 2
  | .slip => 3
  | .tookOver => 4
  | .masterActive => 5
  | .locked => 6
  | .lineUp => 7
  | .txShutdown _ => 0
  | .txDropped _ => 1
  | .rxStarved _ => 2
  | .rxReady => 0
  | .commitRefused => 0
  | .commitDone => 1
  | .txSpace _ => 0
  | .holdExpired _ => 0
  | .peerChange _ => 1

/-- The channel field of the cause word: 0 for sources without one (R162). -/
def Source.channel : Source → Nat
  | .txShutdown c | .txDropped c | .rxStarved c | .txSpace c | .holdExpired c | .peerChange c => c.val
  | _ => 0

/-- A conditional source is pending while its condition holds; every other source is latched (R159). -/
def Source.conditional : Source → Bool
  | .rxReady | .txSpace _ => true
  | _ => false

/-! ## Raising and pending -/

/-- A raise of a latched source sets its pending flag, or merges with the pending instance (R160). -/
def raise (x : Source) (s : State) : State :=
  { s with ev := { s.ev with latched := s.ev.latched.set x.place true } }

/-- A raise of TX_DROPPED(c) with its detail, which replaces the one stored before (R160, R165). -/
def raiseDropped (c : Chan) (d : DropReason) (s : State) : State :=
  { s with ev := { s.ev with latched := s.ev.latched.set (Source.txDropped c).place true,
                             dropDetail := s.ev.dropDetail.set c d } }

/-- A raise of COMMIT_REFUSED with its detail (R160, R165). -/
def raiseRefused (d : Reason) (s : State) : State :=
  { s with ev := { s.ev with latched := s.ev.latched.set Source.commitRefused.place true, refusedDetail := d } }

/-- The free bytes of a transmit buffer: 512 less the lengths of all records (R77). -/
def TxUnit.freeBytes (u : TxUnit) : Nat := 512 - (u.records.map fun x => x.bytes.length).sum

/-- The condition of TX_SPACE(c) (R96). -/
def txSpaceHolds (x : Channel) : Bool := decide (x.cfg.spaceLevel ≤ x.tx.freeBytes) && decide (x.tx.records.length < 8)

/-- The condition of RX_READY (R138). -/
def rxReadyHolds (r : Ring) : Bool :=
  decide (r.threshold ≤ r.entries.length) ||
    (decide (1 ≤ r.entries.length) && decide (r.timeout ≠ 0) && decide (r.timeout ≤ r.timer))

/-- Whether a source is pending: its flag for a latched source, its condition for a conditional one (R160, R161). -/
def State.isPending (s : State) : Source → Bool
  | .rxReady => rxReadyHolds s.ring
  | .txSpace c => txSpaceHolds (s.chan c)
  | x => s.ev.latched.get x.place

/-- The enable flag of a source (R167). -/
def State.isEnabled (s : State) (x : Source) : Bool := s.ev.enable.get x.place

/-- The first source in presentation order that is pending and enabled (R162). -/
def State.named (s : State) : Option Source := allSources.find? fun x => s.isPending x && s.isEnabled x

/-- The detail field of the cause word (R165). -/
def State.detailOf (s : State) : Source → Nat
  | .txDropped c => (s.ev.dropDetail.get c).code
  | .commitRefused => s.ev.refusedDetail.code
  | _ => 0

/-- The cause word: NONE reads 0 (R162, layout of section 10.7). -/
def State.causeWord (s : State) : Word :=
  match s.named with
  | none => 0
  | some x => packWord [(0, x.level), (4, x.code), (8, x.channel), (12, s.detailOf x)]

/-- The acknowledgement of a named latched source: its flag and its detail go (R163). -/
def acknowledge (x : Source) (s : State) : State :=
  if x.conditional then s
  else
    let ev1 : EventUnit := { s.ev with latched := s.ev.latched.set x.place false }
    match x with
    | .txDropped c => { s with ev := { ev1 with dropDetail := ev1.dropDetail.set c .none } }
    | .commitRefused => { s with ev := { ev1 with refusedDetail := .none } }
    | _ => { s with ev := ev1 }

/-- INTn is asserted (driven low) exactly when INTEN is 1 and an enabled source is pending (R169). -/
def State.intAsserted (s : State) : Bool := s.ev.inten && s.named.isSome

/-- The level of the INTn pin (R169, R172): high unless asserted. -/
def State.intnPin (s : State) : Bool := !s.intAsserted

/-! ## The PEND and ENABLE words (R166) -/

/-- The sources a PEND or ENABLE word shows on a page, with their bit positions (R166, section 10.7). -/
def viewSources (page : Bool) (n : Nat) : List (Nat × Source) :=
  match page, n with
  | false, 0 => (timingSources.map fun x => (x.code, x)) ++ [(8, .rxReady), (9, .commitRefused), (10, .commitDone)]
  | false, 1 => (channels.map fun c => (c.val, .txShutdown c)) ++ channels.map fun c => (8 + c.val, .txDropped c)
  | false, 2 => (channels.map fun c => (c.val, .rxStarved c)) ++ channels.map fun c => (8 + c.val, .txSpace c)
  | true, 0 => (channels.map fun c => (c.val, .holdExpired c)) ++ channels.map fun c => (8 + c.val, .peerChange c)
  | _, _ => []

/-- The word PENDn on the page in force (R166). -/
def State.pendWord (s : State) (n : Nat) : Word :=
  packWord ((viewSources s.ev.page n).map fun p => (p.1, flagNat (s.isPending p.2)))

/-- The word ENABLEn on the page in force (R167). -/
def State.enableWord (s : State) (n : Nat) : Word :=
  packWord ((viewSources s.ev.page n).map fun p => (p.1, flagNat (s.isEnabled p.2)))

/-- A write to ENABLEn stores the enable of each source the word shows, from its position (R167). -/
def writeEnable (n : Nat) (w : Word) (s : State) : State :=
  { s with ev := { s.ev with enable :=
      (viewSources s.ev.page n).foldl (fun v p => v.set p.2.place (wbit w p.1)) s.ev.enable } }

/-- A write to INTCTL stores INTEN and the view page together (R168). -/
def writeIntctl (w : Word) (s : State) : State :=
  { s with ev := { s.ev with inten := wbit w 0, page := wbit w 1 } }

/-! ## CAUSE_READ -/

/-- A read of CAUSE returns the cause word and acknowledges the latched source it names (R163). -/
def readCause (s : State) : State :=
  let v := s.causeWord
  match s.named with
  | none => s.driveData v
  | some x => (acknowledge x s).driveData v

/-- CAUSE_READ (R163). -/
def execCauseRead (s : State) : Host.Outcome State Fault Refusal := .next (outOfReset readCause s)

end Sys2Proof.Machine
end

