-- ==== Sys2Proof/Machine/Flow.lean ====
section
/-! DEFINITION. Flow control (spec 08): the causes of the local pause, its transitions and obligations, the refresh and
hold counters, and the remote pause. -/

namespace Sys2Proof.Machine

open Sys2Proof

/-! ## The local pause -/

/-- What the local pause of a channel is to be: both enables and some cause (R145). -/
def pauseWanted (x : Channel) : Bool := x.cfg.rx && x.cfg.fc && (x.fl.quota || x.fl.pool || x.fl.host)

/-- A transition of the local pause to `want`: it owes the matching flow word, cancels the other, and sets the refresh
counter to 0 (R146). -/
def pauseTransition (want : Bool) (u : FlowUnit) : FlowUnit :=
  { u with asserted := want, pauseOwed := want, resumeOwed := !want, refresh := 0 }

/-- An evaluation of the local pause (R145): a change is a transition, anything else changes nothing. -/
def evalPause (c : Chan) (s : State) : State :=
  let x := s.chan c
  if pauseWanted x = x.fl.asserted then s else s.setFl c (pauseTransition (pauseWanted x) x.fl)

/-- The QUOTA cause for a held count, with hysteresis between LW and HW (R142). -/
def quotaCause (x : Channel) : Bool :=
  if x.cfg.hw ≤ x.held then true else if x.held ≤ x.cfg.lw then false else x.fl.quota

/-- An evaluation of the QUOTA cause, and of the local pause after it (R142, R145). -/
def evalQuota (c : Chan) (s : State) : State :=
  let x := s.chan c
  evalPause c (s.setFl c { x.fl with quota := quotaCause x })

/-- The pool sets or clears the POOL cause of flow unit c, which then evaluates its local pause (R143). -/
def setPoolCause (low : Bool) (c : Chan) (s : State) : State :=
  evalPause c (s.setFl c { (s.chan c).fl with pool := low })

/-- The pool-low condition for the free count, with its hysteresis (R106). -/
def poolLow (p : Pool) : Bool :=
  if p.free.length ≤ p.reserve then true else if p.reserve + p.hyst ≤ p.free.length then false else p.low

/-- An evaluation of the pool-low condition: a change sets or clears the POOL cause of all eight flow units (R106, R143). -/
def evalPoolLow (s : State) : State :=
  if poolLow s.pool = s.pool.low then s
  else takeAll (channels.map (setPoolCause (poolLow s.pool))) { s with pool := { s.pool with low := poolLow s.pool } }

/-- The HOST cause is asserted or cleared, and the local pause evaluated (R144, R145). -/
def setHostCause (on : Bool) (c : Chan) (s : State) : State :=
  evalPause c (s.setFl c { (s.chan c).fl with host := on })

/-! ## Paying an obligation -/

/-- The flow word owed, if any (R148). -/
def FlowUnit.owed (u : FlowUnit) : Option FlowWord :=
  if u.pauseOwed then some .pause else if u.resumeOwed then some .resume else none

/-- Taking an owed word for a TX slot clears its obligation and records the word in flight (R148). -/
def FlowUnit.take (u : FlowUnit) (w : FlowWord) : FlowUnit :=
  match w with
  | .pause => { u with pauseOwed := false, flight := some .pause }
  | .resume => { u with resumeOwed := false, flight := some .resume }

/-- The echo result of the flow word in flight (R149): a mismatched word is owed again while it matches the local pause. -/
def FlowUnit.echo (u : FlowUnit) (ok : Bool) : FlowUnit :=
  match u.flight with
  | none => u
  | some .pause => { u with flight := none, pauseOwed := u.pauseOwed || (!ok && u.asserted) }
  | some .resume => { u with flight := none, resumeOwed := u.resumeOwed || (!ok && !u.asserted) }

/-- A traffic abort at a flow unit (R150). -/
def FlowUnit.trafficAbort (u : FlowUnit) : FlowUnit :=
  { u with
    flight := none
    pauseOwed := u.pauseOwed || u.asserted
    resumeOwed := u.resumeOwed || (!u.asserted && decide (u.flight = some .resume))
    refresh := if u.asserted then 0 else u.refresh
    held := false
    holdCnt := 0 }

/-! ## Steps at a frame boundary -/

/-- Whether the refresh counter reaches P at this frame boundary (R147). -/
def refreshDue (x : Channel) : Bool := x.fl.asserted && decide (x.cfg.p ≤ x.fl.refresh + 1)

/-- The refresh step of a frame boundary (R147). -/
def refreshStep (c : Chan) (s : State) : State :=
  let x := s.chan c
  if x.fl.asserted then
    if refreshDue x then s.setFl c { x.fl with pauseOwed := true, refresh := 0 }
    else s.setFl c { x.fl with refresh := x.fl.refresh + 1 }
  else s

/-- Whether the hold of channel c expires at this frame boundary (R154). -/
def holdDue (x : Channel) : Bool := x.fl.held && decide (x.cfg.h ≤ x.fl.holdCnt + 1)

/-- The hold step of a frame boundary (R154). -/
def holdStep (c : Chan) (s : State) : State :=
  let x := s.chan c
  if x.fl.held then
    if holdDue x then raise (.holdExpired c) (s.setFl c { x.fl with held := false, holdCnt := 0 })
    else s.setFl c { x.fl with holdCnt := x.fl.holdCnt + 1 }
  else s

/-! ## The remote pause -/

/-- A PAUSE word delivered from an RX slot (R151). -/
def takePause (c : Chan) (s : State) : State :=
  let x := s.chan c
  if x.cfg.fc then s.setFl c { x.fl with held := true, holdCnt := 0 } else s

/-- A RESUME word delivered from an RX slot (R152). -/
def takeResume (c : Chan) (s : State) : State :=
  let x := s.chan c
  if x.cfg.fc && x.fl.held then s.setFl c { x.fl with held := false, holdCnt := 0 } else s

/-- The remote pause returns to GO with its counter at 0 (R153, R71). -/
def letGo (c : Chan) (s : State) : State := s.setFl c { (s.chan c).fl with held := false, holdCnt := 0 }

/-- Highway frames run only in LOCKED and DRIVING (R36). -/
def framesRun (s : State) : Bool := decide (s.tim.st = .locked) || decide (s.tim.st = .driving)

/-! ## Commands -/

/-- The result of a command goes into the command-status record (R177). -/
def setCmd (result : CmdResult) (reason : Reason) (code : BitVec 8) (s : State) : State :=
  { s with cmd := { result := result, reason := reason, code := code } }

/-- HOST_PAUSE(c) with its result (R144, R177). -/
def hostPauseCmd (c : Chan) (s : State) : State :=
  setCmd .done .none (BitVec.ofNat 8 (0x20 + c.val)) (setHostCause true c s)

/-- HOST_RESUME(c) with its result (R144, R177). -/
def hostResumeCmd (c : Chan) (s : State) : State :=
  setCmd .done .none (BitVec.ofNat 8 (0x28 + c.val)) (setHostCause false c s)

/-- HOST_PAUSE (R144). -/
def execHostPause (c : Chan) (s : State) : Host.Outcome State Fault Refusal := .next (outOfReset (hostPauseCmd c) s)

/-- HOST_RESUME (R144). -/
def execHostResume (c : Chan) (s : State) : Host.Outcome State Fault Refusal := .next (outOfReset (hostResumeCmd c) s)

/-- REFRESH (R147): the refresh step of channel c at a frame boundary at which the counter reaches P; at any other moment
nothing happens (log entry 2). -/
def execRefresh (c : Chan) (s : State) : Host.Outcome State Fault Refusal :=
  .next (outOfReset (fun s => if framesRun s && refreshDue (s.chan c) then refreshStep c s else s) s)

/-- HOLD_EXPIRED (R154): the hold step of channel c at a frame boundary at which the counter reaches H; at any other moment
nothing happens (log entry 2). -/
def execHoldExpired (c : Chan) (s : State) : Host.Outcome State Fault Refusal :=
  .next (outOfReset (fun s => if framesRun s && holdDue (s.chan c) then holdStep c s else s) s)

end Sys2Proof.Machine
end

