-- ==== Sys2Proof/Machine/Pool.lean ====
section
/-! DEFINITION. The block pool (spec 06, sections 6.1 and 6.2): chains, grants, freeing, POOLCFG. -/

namespace Sys2Proof.Machine

open Sys2Proof

/-- The blocks of a chain, from a first block along the links (R100); no chain has more than 128 blocks. -/
def chainFrom (links : Vector (Option BlockNo) 128) : Nat → Option BlockNo → List BlockNo
  | 0, _ => []
  | _ + 1, none => []
  | n + 1, some b => b :: chainFrom links n (links.get b)

/-- The chain of a first block. -/
def Pool.chain (p : Pool) (first : Option BlockNo) : List BlockNo := chainFrom p.links 128 first

/-- Every link of the blocks listed becomes none (R103). -/
def clearLinks (links : Vector (Option BlockNo) 128) (bs : List BlockNo) : Vector (Option BlockNo) 128 :=
  bs.foldl (fun v (b : BlockNo) => v.set b none) links

/-- A change of held(c) and of the free count evaluates the QUOTA cause of the channel and the pool-low condition
(R142, R106). -/
def countsChanged (c : Chan) (s : State) : State := evalPoolLow (evalQuota c s)

/-- The grant of block b, whose removal leaves `rest` on the free list, to the open message of channel c (R102). -/
def grant (c : Chan) (b : BlockNo) (rest : List BlockNo) (s : State) : State :=
  let x := s.chan c
  let links1 := s.pool.links.set b none
  let links2 := match x.rx.cur with
    | none => links1
    | some k => links1.set k (some b)
  let s1 : State := { s with pool := { s.pool with free := rest, links := links2 } }
  countsChanged c (s1.setChan c
    { x with held := x.held + 1, rx := { x.rx with first := x.rx.first.or (some b), cur := some b, fill := 0 } })

/-- A chain of channel c is freed whole, in chain order (R103). An absent chain frees nothing. -/
def freeChain (c : Chan) (first : Option BlockNo) (s : State) : State :=
  let bs := s.pool.chain first
  if bs.isEmpty then s
  else
    let x := s.chan c
    let s1 : State := { s with pool := { s.pool with free := s.pool.free ++ bs, links := clearLinks s.pool.links bs } }
    countsChanged c (s1.setChan c { x with held := x.held - bs.length })

/-- A write to POOLCFG, checked whole (R105), then the pool-low condition (R106). -/
def writePoolcfg (w : Word) (s : State) : State :=
  let reserve := field w 0 7
  let hyst := field w 8 6
  if hyst = 0 ∨ 32 < hyst ∨ 128 < reserve + hyst then reject s
  else evalPoolLow { s with pool := { s.pool with reserve := reserve, hyst := hyst } }

/-- POOLCFG_WRITE (R105). -/
def execPoolcfgWrite (w : Word) (s : State) : Host.Outcome State Fault Refusal := .next (outOfReset (writePoolcfg w) s)

end Sys2Proof.Machine
end

