-- ==== Sys2Proof/Machine/DescRing.lean ====
section
/-! DEFINITION. The descriptor ring (spec 07): reservations, completion, the head and its read-out, RELEASE, RINGCFG and
the ready timer. -/

namespace Sys2Proof.Machine

open Sys2Proof

/-! ## Reservations and completion -/

/-- The ring grants a reservation while filled entries plus reservations are fewer than 32 (R128). -/
def reservationGranted (r : Ring) : Bool := decide (r.entries.length + r.reserved < 32)

/-- A reservation is taken (R128). -/
def takeReservation (s : State) : State := { s with ring := { s.ring with reserved := s.ring.reserved + 1 } }

/-- A reservation is returned by a discard (R117, R128). -/
def returnReservation (s : State) : State := { s with ring := { s.ring with reserved := s.ring.reserved - 1 } }

/-- The receive unit in IDLE: the damaged flag clear, the gap counter 0, no chain, no length, no data seen (R108, R119). The
sequence counter stays. -/
def RxUnit.idled (u : RxUnit) : RxUnit :=
  { u with st := .idle, first := none, cur := none, fill := 0, len := 0, damaged := false, gap := 0, seen := false }

/-- The descriptor of an ended message (R116, R130), stamped with the frame counter as it stands (R129). -/
def descriptorOf (c : Chan) (status : MsgStatus) (s : State) : Descriptor :=
  let u := (s.chan c).rx
  { chan := c
    seq := u.seq
    status := status
    damaged := u.damaged
    length := if status = .overrun then 0 else u.len
    first := if status = .overrun then none else u.first
    stamp := s.tim.frameCnt }

/-- Completion: the descriptor joins the tail, the reservation becomes the entry, the ready timer is 0 (R129), a sequence
value is consumed (R118), and the receive unit returns to IDLE (R116). -/
def complete (c : Chan) (status : MsgStatus) (s : State) : State :=
  let u := (s.chan c).rx
  let s1 : State := { s with ring := { s.ring with
    entries := s.ring.entries ++ [descriptorOf c status s], reserved := s.ring.reserved - 1, timer := 0 } }
  s1.setRx c { u.idled with seq := u.seq + 1 }

/-! ## Read-out -/

/-- The byte at read offset o of a descriptor's chain: block o/32 of the chain, position o mod 32 (R132); none where the
chain does not reach. -/
def State.messageByte (s : State) (d : Descriptor) (o : Nat) : Option Byte :=
  match (s.pool.chain d.first)[o / 32]? with
  | none => none
  | some b => some (s.poolByte b (o % 32))

/-- What a read of RXDATA returns and does, by the first case of R132 that applies. -/
def execRxdataRead (s : State) : Host.Outcome State Fault Refusal :=
  if s.resetn then
    match s.ring.entries with
    | [] => .next (s.driveData 0x8000)
    | d :: _ =>
      if s.ring.readOff = d.length then .next (s.driveData 0x4000)
      else
        match s.messageByte d s.ring.readOff with
        | none => .fault .chainBroken
        | some b =>
          let s1 : State := { s with ring := { s.ring with readOff := s.ring.readOff + 1 } }
          .next (s1.driveData (packWord [(0, b.toNat), (8, flagNat (s.ring.readOff + 1 = d.length))]))
  else .next s

/-- A write to RXOFFSET (R133): the whole word is the offset (R179). -/
def writeRxoffset (w : Word) (s : State) : State :=
  match s.ring.entries with
  | [] => reject s
  | d :: _ => if d.length < w.toNat then reject s else { s with ring := { s.ring with readOff := w.toNat } }

/-- RXOFFSET_WRITE (R133). -/
def execRxoffsetWrite (w : Word) (s : State) : Host.Outcome State Fault Refusal := .next (outOfReset (writeRxoffset w) s)

/-! ## Release -/

/-- The head leaves the ring: its chain is freed, the read offset and the ready timer become 0 (R134). -/
def releaseHead (d : Descriptor) (rest : List Descriptor) (s : State) : State :=
  let s1 := freeChain d.chan d.first s
  { s1 with ring := { s1.ring with entries := rest, readOff := 0, timer := 0 } }

/-- RELEASE with its result (R134, R177). -/
def releaseCmd (s : State) : State :=
  match s.ring.entries with
  | [] => setCmd .refused .empty 0x04 s
  | d :: rest => setCmd .done .none 0x04 (releaseHead d rest s)

/-- RELEASE (R134). -/
def execRelease (s : State) : Host.Outcome State Fault Refusal := .next (outOfReset releaseCmd s)

/-! ## RINGCFG and the ready timer -/

/-- A write to RINGCFG, checked whole (R136). RX_READY follows its condition by itself (R138, R161). -/
def writeRingcfg (w : Word) (s : State) : State :=
  let threshold := field w 0 6
  if threshold = 0 ∨ 32 < threshold then reject s
  else { s with ring := { s.ring with threshold := threshold, timeout := field w 8 8 } }

/-- RINGCFG_WRITE (R136). -/
def execRingcfgWrite (w : Word) (s : State) : Host.Outcome State Fault Refusal := .next (outOfReset (writeRingcfg w) s)

/-- The ready timer's step at a frame boundary (R137). -/
def readyStep (s : State) : State :=
  if s.ring.entries.isEmpty then s
  else { s with ring := { s.ring with timer := min 255 (s.ring.timer + 1) } }

/-- Whether the ready timer reaches the ready timeout at this frame boundary (R138). -/
def readyDue (r : Ring) : Bool :=
  !r.entries.isEmpty && decide (r.timeout ≠ 0) && decide (r.timer < r.timeout) && decide (r.timeout ≤ r.timer + 1)

/-- READY_TIMEOUT (R138): the ready timer's step at a frame boundary at which it reaches the ready timeout, from which
RX_READY is pending; at any other moment nothing happens (log entry 2). -/
def execReadyTimeout (s : State) : Host.Outcome State Fault Refusal :=
  .next (outOfReset (fun s => if framesRun s && readyDue s.ring then readyStep s else s) s)

end Sys2Proof.Machine
end

