-- ==== Sys2Proof/Machine/Receive.lean ====
section
/-! DEFINITION. The receive unit (spec 06, sections 6.3 to 6.6): how a message begins, is stored and ends. -/

namespace Sys2Proof.Machine

open Sys2Proof

/-! ## How a message ends -/

/-- The status of a message that ends with a closing cause, by its receive state (R115). -/
def closingStatus (st : RxState) (cause : MsgStatus) : Option MsgStatus :=
  match st with
  | .opened => some cause
  | .truncating => some .truncated
  | .overrun => some .overrun
  | .starved => none
  | .idle => none

/-- Whether a receive unit has a message in progress (R108). -/
def RxState.inProgress : RxState → Bool
  | .idle => false
  | _ => true

/-- Whether a receive unit holds a ring reservation (R108). -/
def RxState.holdsReservation : RxState → Bool
  | .opened | .truncating | .overrun => true
  | .idle | .starved => false

/-- The message in progress of channel c ends with a closing cause: a descriptor, or from STARVED a return to IDLE
(R115). In IDLE nothing happens. -/
def closeMsg (c : Chan) (cause : MsgStatus) (s : State) : State :=
  match closingStatus (s.chan c).rx.st cause with
  | some status => complete c status s
  | none => if (s.chan c).rx.st.inProgress then s.setRx c (s.chan c).rx.idled else s

/-- A discard: the open chain is freed, the reservation returned, no descriptor, no sequence value; from STARVED a return to
IDLE (R117). -/
def discardMsg (c : Chan) (s : State) : State :=
  if (s.chan c).rx.st.holdsReservation then
    let s1 := returnReservation (freeChain c (s.chan c).rx.first s)
    s1.setRx c (s1.chan c).rx.idled
  else if (s.chan c).rx.st.inProgress then s.setRx c (s.chan c).rx.idled
  else s

/-! ## Storing bytes -/

/-- The byte is written at the fill position of the current block, and fill and stored length rise by 1 (R111). -/
def putByte (c : Chan) (k : BlockNo) (b : Byte) (s : State) : State :=
  let u := (s.chan c).rx
  (s.writePoolByte k u.fill b).setRx c { u with fill := u.fill + 1, len := u.len + 1 }

/-- A refused block makes the message OVERRUN and frees its open chain at once; the reservation is kept (R111). -/
def overrunMsg (c : Chan) (s : State) : State :=
  let s1 := freeChain c (s.chan c).rx.first s
  s1.setRx c { (s1.chan c).rx with st := .overrun, first := none, cur := none, fill := 0, len := 0 }

/-- Storing a byte in an OPEN message, by the first case of R111 that applies. -/
def storeByte (c : Chan) (b : Byte) (s : State) : State :=
  let x := s.chan c
  if x.cfg.maxLen ≤ x.rx.len then s.setRx c { x.rx with st := .truncating }
  else
    match x.rx.cur, decide (x.rx.fill < 32) with
    | some k, true => putByte c k b s
    | _, _ =>
      match s.pool.free with
      | [] => overrunMsg c s
      | k :: rest => if x.held < x.cfg.quota then putByte c k b (grant c k rest s) else overrunMsg c s

/-! ## Delivered words -/

/-- A message starves: a sequence value is consumed, STARVED is set and RX_STARVED(c) raised (R110). -/
def starve (c : Chan) (s : State) : State :=
  let u := (s.chan c).rx
  let s1 := s.setRx c { u with st := .starved, seq := u.seq + 1 }
  raise (.rxStarved c) (s1.setSticky c { (s1.chan c).sticky with starved := true })

/-- A DATA or LAST word in IDLE asks for a reservation and opens or starves the message (R110, R128). -/
def beginMsg (c : Chan) (b : Byte) (s : State) : State :=
  if reservationGranted s.ring then
    let s1 := takeReservation s
    storeByte c b (s1.setRx c { (s1.chan c).rx with st := .opened })
  else starve c s

/-- The byte of a DATA or LAST word, by the receive state (R110, R112). -/
def takeByte (c : Chan) (b : Byte) (s : State) : State :=
  match (s.chan c).rx.st with
  | .idle => beginMsg c b s
  | .opened => storeByte c b s
  | .truncating => s
  | .overrun => s
  | .starved => s

/-- A DATA (last = false) or LAST word delivered to receive unit c (R109, R110, R112, R119). -/
def takeMessageWord (c : Chan) (b : Byte) (last : Bool) (s : State) : State :=
  if (s.chan c).cfg.rx then
    let s1 := takeByte c b (s.setRx c { (s.chan c).rx with seen := true })
    if last then closeMsg c .ok s1 else s1
  else s

/-- A corrupt word delivered to receive unit c (R109, R113). -/
def takeCorrupt (c : Chan) (s : State) : State :=
  if (s.chan c).cfg.rx then
    if (s.chan c).rx.st.inProgress then s.setRx c { (s.chan c).rx with damaged := true }
    else s.setSticky c { (s.chan c).sticky with parity := true }
  else s

/-- An ABORT word delivered to receive unit c (R109, R114). -/
def takeAbort (c : Chan) (s : State) : State := if (s.chan c).cfg.rx then discardMsg c s else s

/-! ## The gap timer -/

/-- The gap counter's value after a step that increases it (R120). -/
def gapNext (u : RxUnit) : Nat := min 255 (u.gap + 1)

/-- Whether the gap of channel c expires at this frame boundary (R120). -/
def gapDue (x : Channel) : Bool :=
  x.rx.st.inProgress && !x.rx.seen && !x.fl.asserted && decide (x.cfg.gapLimit ≠ 0) &&
    decide (x.cfg.gapLimit ≤ gapNext x.rx)

/-- The gap count of channel c at a frame boundary, after which the data-seen flag is clear (R119, R120). -/
def gapStep (c : Chan) (s : State) : State :=
  let x := s.chan c
  if x.rx.st.inProgress then
    if x.rx.seen then s.setRx c { x.rx with gap := 0, seen := false }
    else if x.fl.asserted then s
    else if gapDue x then closeMsg c .gap s
    else s.setRx c { x.rx with gap := gapNext x.rx }
  else s.setRx c { x.rx with seen := false }

/-- GAP_EXPIRY (R120): the gap count of channel c at a frame boundary at which the counter reaches gap_limit, so that the
message ends with closing cause GAP; at any other moment nothing happens (log entry 2). -/
def execGapExpiry (c : Chan) (s : State) : Host.Outcome State Fault Refusal :=
  .next (outOfReset (fun s => if framesRun s && gapDue (s.chan c) then gapStep c s else s) s)

/-- The data-seen flag is cleared when slot 0 of a frame that follows no frame boundary begins (R119). -/
def clearSeen (c : Chan) (s : State) : State := s.setRx c { (s.chan c).rx with seen := false }

end Sys2Proof.Machine
end

