-- ==== Sys2Proof/Machine/Transmit.lean ====
section
/-! DEFINITION. The transmit unit (spec 05): host writes, word choice, echo results, collisions, restarts and drops. -/

namespace Sys2Proof.Machine

open Sys2Proof

/-! ## The message list -/

/-- Whether the newest record is open (R77). -/
def TxUnit.hasOpen (u : TxUnit) : Bool :=
  match u.records.getLast? with
  | some x => !x.closed
  | none => false

/-- The unit with its newest record changed. -/
def TxUnit.modNewest (u : TxUnit) (f : TxRecord → TxRecord) : TxUnit :=
  match u.records.getLast? with
  | some x => { u with records := u.records.dropLast ++ [f x] }
  | none => u

/-- The unit without its newest record, whose bytes are freed (R80). -/
def TxUnit.dropNewest (u : TxUnit) : TxUnit := { u with records := u.records.dropLast }

/-- The head leaves the list and the next record, if any, is the head, READY at offset 0 (R77). -/
def TxUnit.dropHead (u : TxUnit) : TxUnit := { u with records := u.records.tail, sending := false, offset := 0 }

/-- The acceptance test of a TXDATA byte (R78). -/
def TxUnit.accepts (u : TxUnit) : Bool :=
  decide (1 ≤ u.freeBytes) && (u.hasOpen || decide (u.records.length < 8))

/-- An accepted byte is stored (R78); a new record takes the poisoned flag the unit holds alone (R79). -/
def TxUnit.store (u : TxUnit) (b : Byte) : TxUnit :=
  if u.hasOpen then u.modNewest fun x => { x with bytes := x.bytes ++ [b] }
  else { u with records := u.records ++ [{ bytes := [b], closed := false, poisoned := u.lone }], lone := false }

/-- A refused byte poisons the message being written (R79). A refused one-byte message is lost at its close (R80). -/
def TxUnit.refuse (u : TxUnit) (last : Bool) : TxUnit :=
  if u.hasOpen then u.modNewest fun x => { x with poisoned := true }
  else if last then u
  else { u with lone := true }

/-- Whether the newest record is poisoned. -/
def TxUnit.newestPoisoned (u : TxUnit) : Bool :=
  match u.records.getLast? with
  | some x => x.poisoned
  | none => false

/-- A drop is reported: the last drop reason and TX_DROPPED(c) with its detail (R98). -/
def reportDrop (c : Chan) (d : DropReason) (s : State) : State :=
  raiseDropped c d (s.setTx c { (s.chan c).tx with lastDrop := d })

/-- The LAST mark closes the message being written (R80). -/
def closeWritten (c : Chan) (s : State) : State :=
  let u := (s.chan c).tx
  if u.hasOpen then
    if u.newestPoisoned then reportDrop c .overflow (s.setTx c u.dropNewest)
    else s.setTx c (u.modNewest fun x => { x with closed := true })
  else reportDrop c .overflow (s.setTx c { u with lone := false })

/-- A write to TXDATA(c): bits 7-0 the byte, bit 8 the LAST mark, the bits above ignored (R78 to R80). -/
def writeTxdata (c : Chan) (w : Word) (s : State) : State :=
  let u := (s.chan c).tx
  let s1 :=
    if u.accepts then s.setTx c (u.store (lowByte w))
    else
      let s2 := s.setTx c (u.refuse (wbit w 8))
      s2.setSticky c { (s2.chan c).sticky with txOverflow := true }
  if wbit w 8 then closeWritten c s1 else s1

/-- TXDATA (R78). -/
def execTxdata (c : Chan) (w : Word) (s : State) : Host.Outcome State Fault Refusal := .next (outOfReset (writeTxdata c w) s)

/-! ## Word choice -/

/-- The message word of step 3, from the head at its offset (R82); IDLE where there is no closed head. -/
def TxUnit.messageWord (u : TxUnit) : TxKind :=
  match u.records with
  | [] => .idle
  | x :: _ =>
    if x.closed then (if u.offset + 1 < x.bytes.length then .data u.offset else .last u.offset) else .idle

/-- The four steps of the word choice (R81). -/
def chooseKind (x : Channel) : TxKind :=
  if x.cfg.tx && x.tx.abortOwed then .abort
  else
    match x.fl.owed with
    | some .pause => .pause
    | some .resume => .resume
    | none => if x.cfg.tx && !x.fl.held && !x.tx.abortOwed then x.tx.messageWord else .idle

/-- The head's byte at an offset. -/
def TxUnit.headByte (u : TxUnit) (off : Nat) : Byte :=
  match u.records with
  | [] => 0
  | x :: _ => x.bytes.getD off 0

/-- The slot word of a kind (R5, R6, R10, R82). -/
def TxUnit.wordOf (u : TxUnit) : TxKind → SlotWord
  | .idle => buildWord .idle 0
  | .data off => buildWord .data (u.headByte off)
  | .last off => buildWord .last (u.headByte off)
  | .abort => buildWord .ctrl codeAbort
  | .pause => buildWord .ctrl codePause
  | .resume => buildWord .ctrl codeResume

/-- Whether a kind carries a message byte. -/
def TxKind.isMessage : TxKind → Bool
  | .data _ | .last _ => true
  | _ => false

/-- The chosen word is kept in flight; a message word makes its head SENDING (R82), a flow word is taken from the flow unit
(R148). -/
def keepWord (c : Chan) (k : TxKind) (s : State) : State :=
  let u := (s.chan c).tx
  let s1 := s.setTx c { u with flight := some { kind := k, orphan := false }, sending := u.sending || k.isMessage }
  match k with
  | .pause => s1.setFl c ((s1.chan c).fl.take .pause)
  | .resume => s1.setFl c ((s1.chan c).fl.take .resume)
  | _ => s1

/-! ## Restarts, collisions and the shutdown -/

/-- An uncounted restart (R90). -/
def TxUnit.uncountedRestart (u : TxUnit) : TxUnit := { u with abortOwed := true, sending := false, offset := 0 }

/-- A counted restart against restart_limit (step 2 of R87). -/
def TxUnit.countedRestart (u : TxUnit) (limit : Nat) : TxUnit :=
  { u with r := u.r + 1, abortOwed := true, sending := false, offset := 0,
           dropAfter := u.dropAfter || decide (limit < u.r + 1) }

/-- Step 2 of R87 for the word in flight; a message word whose head FLUSH removed only owes its ABORT (R72). -/
def TxUnit.collided (u : TxUnit) (f : TxFlight) (limit : Nat) : TxUnit :=
  if f.kind.isMessage then (if f.orphan then { u with abortOwed := true } else u.countedRestart limit) else u

/-- The shutdown of the channel's transmitter (R88). -/
def shutdown (c : Chan) (s : State) : State :=
  let x := s.chan c
  raise (.txShutdown c) (s.setChan c { x with cfg := { x.cfg with tx := false }, tx := { x.tx with coll := 0 } })

/-- A collision: the counter, the restart, the limit test (R87, R88). -/
def collide (c : Chan) (f : TxFlight) (s : State) : State :=
  let x := s.chan c
  let s1 := s.setTx c ({ x.tx with coll := x.tx.coll + 1 }.collided f x.cfg.restartLimit)
  if x.cfg.collLimit ≤ (s1.chan c).tx.coll then shutdown c s1 else s1

/-- A mismatch with tx_enable 0 (R86). -/
def strayEcho (c : Chan) (s : State) : State := s.setSticky c { (s.chan c).sticky with strayEcho := true }

/-- A matched message word: DATA moves the offset, LAST commits the head (R83); of a head that FLUSH removed, DATA owes an
ABORT and LAST does nothing (R72). -/
def TxUnit.matchedMessage (u : TxUnit) (f : TxFlight) : TxUnit :=
  match f.kind, f.orphan with
  | .data _, false => { u with offset := u.offset + 1 }
  | .data _, true => { u with abortOwed := true }
  | .last _, false => { u.dropHead with r := 0, coll := 0 }
  | _, _ => u

/-- A matched ABORT clears abort_owed, and drops the head if drop_after_abort is set (R84). -/
def abortMatched (c : Chan) (s : State) : State :=
  let u := (s.chan c).tx
  if u.dropAfter then
    reportDrop c .restarts (s.setTx c { u.dropHead with abortOwed := false, dropAfter := false, r := 0 })
  else s.setTx c { u with abortOwed := false }

/-- A matched echo of the word in flight (R83 to R85). -/
def matchedEcho (c : Chan) (f : TxFlight) (s : State) : State :=
  match f.kind with
  | .abort => abortMatched c s
  | _ => s.setTx c ((s.chan c).tx.matchedMessage f)

/-- The restart test that a disable during the slot left outstanding, after the echo (R93). Where the host had set tx_enable
again before the echo (`reenabled`), R93 leaves open whether it is made: a free value decides (log entry 12). -/
def outstandingTest (c : Chan) (reenabled : Bool) (s : State) : State :=
  let x := s.chan c
  if x.tx.testDue then
    let u := { x.tx with testDue := false }
    if reenabled then
      let s1 : State := { s with arb := s.arb + 1 }
      s1.setTx c (if Config.testAfterReenable s.arb && u.sending then u.uncountedRestart else u)
    else s.setTx c (if u.sending then u.uncountedRestart else u)
  else s

/-- The echo result applied to the word in flight (R83 to R88, R93). -/
def txEcho (c : Chan) (ok : Bool) (s : State) : State :=
  match (s.chan c).tx.flight with
  | none => s
  | some f =>
    let enabled := (s.chan c).cfg.tx
    let s1 := s.setTx c { (s.chan c).tx with flight := none }
    let s2 := if ok then matchedEcho c f s1 else if enabled then collide c f s1 else strayEcho c s1
    outstandingTest c enabled s2

/-! ## Disable, traffic abort, flush -/

/-- The host takes tx_enable from 1 to 0: the restart test is made at the write, or waits for the echo while a word is in
flight (R93). -/
def txDisable (c : Chan) (s : State) : State :=
  let u := (s.chan c).tx
  if u.flight.isSome then s.setTx c { u with testDue := true }
  else if u.sending && decide (0 < u.offset) then s.setTx c u.uncountedRestart
  else s

/-- Whether the word in flight is a message word whose head FLUSH removed (R91). -/
def TxUnit.orphanInFlight (u : TxUnit) : Bool :=
  match u.flight with
  | some f => f.orphan && f.kind.isMessage
  | none => false

/-- A traffic abort at a transmit unit (R91). -/
def TxUnit.trafficAbort (u : TxUnit) : TxUnit :=
  let u1 := { u with flight := none, testDue := false, abortOwed := u.abortOwed || u.orphanInFlight }
  if u.sending then u1.uncountedRestart else u1

/-- FLUSH at a transmit unit (R69); a word in flight goes on without its head (R72). -/
def TxUnit.flush (u : TxUnit) : TxUnit :=
  { u with
    records := []
    lone := false
    sending := false
    offset := 0
    flight := u.flight.map fun f => { f with orphan := true }
    testDue := false
    abortOwed := u.abortOwed || (u.sending && decide (0 < u.offset))
    dropAfter := false
    r := 0
    coll := 0 }

/-- The switch notice at a transmit unit whose channel has no TX slot left (R92). -/
def TxUnit.unmapped (u : TxUnit) : TxUnit := if u.sending && decide (0 < u.offset) then u.uncountedRestart else u

end Sys2Proof.Machine
end

