-- ==== Sys2Proof/Machine/MapUnit.lean ====
section
/-! DEFINITION. The map unit (spec 03): the banks, MAPADDR, MAPDATA, MAPHDR, COMMIT, CANCEL, the switch and its notice, and
peer presence (spec 04, R73 and R74), which the notice and the frame boundary step. -/

namespace Sys2Proof.Machine

open Sys2Proof

/-! ## Banks -/

/-- The frame length L of a bank (R41). -/
def Bank.slots (b : Bank) : Nat := 8 * (b.len.val + 1)

/-- The entry at a slot number; there is none at 32 or above. -/
def Bank.entry (b : Bank) (k : Nat) : MapEntry := if h : k < 32 then b.entries.get ⟨k, h⟩ else {}

/-- Whether a bank gives channel c a slot of a mode, below its frame length (R53, R64). -/
def Bank.gives (b : Bank) (m : SlotMode) (c : Chan) : Bool :=
  (List.range b.slots).any fun k => decide (b.entry k = { mode := m, chan := c })

/-- A bank that gives channel c a slot to receive in and none to send in (R46, R64). -/
def Bank.noReturn (b : Bank) (c : Chan) : Bool := b.gives .rx c && !b.gives .tx c

/-! ## Peer presence (R73, R74) -/

/-- The judgement of a frame (R73). -/
def Peer.judge (p : Peer) : Peer :=
  if p.mark then { p with present := true, silence := 0 }
  else
    let n := min 8 (p.silence + 1)
    { p with silence := n, present := p.present && decide (n < 8) }

/-- The step of peer presence at a frame boundary, with the bank under which the ending frame was worked (R73). The
non-silent mark is that of the frame that ends, so it is clear after the boundary (log entry 15). -/
def peerStep (worked : Bank) (c : Chan) (s : State) : State :=
  let p := (s.chan c).peer
  if worked.gives .rx c && s.map.active.gives .rx c then
    let q := p.judge
    let s1 := s.setPeer c { q with mark := false }
    if q.present = p.present then s1 else raise (.peerChange c) s1
  else s.setPeer c { p with mark := false }

/-- The switch notice at peer presence of a channel without an RX slot (R74). -/
def peerUnmapped (c : Chan) (s : State) : State :=
  let p := (s.chan c).peer
  let s1 := s.setPeer c { p with present := false, silence := 0 }
  if p.present then raise (.peerChange c) s1 else s1

/-- Whether a PRESENT channel becomes ABSENT at this frame boundary (R73). -/
def absentDue (s : State) (c : Chan) : Bool :=
  let p := (s.chan c).peer
  s.map.active.gives .rx c && p.present && !p.mark && decide (8 ≤ p.silence + 1)

/-- PEER_ABSENT (R73): the judgement of channel c at a frame boundary at which its silence counter reaches 8; at any other
moment nothing happens (log entry 2). -/
def execPeerAbsent (c : Chan) (s : State) : Host.Outcome State Fault Refusal :=
  .next (outOfReset (fun s => if framesRun s && absentDue s c then peerStep s.map.active c s else s) s)

/-! ## Editing SHADOW -/

/-- A write to MAPADDR sets the map address record (R42). -/
def writeMapaddr (w : Word) (s : State) : State :=
  { s with map := { s.map with index := ⟨field w 0 5 % 32, Nat.mod_lt _ (by decide)⟩, selActive := wbit w 8, autoInc := wbit w 15 } }

/-- The slot index after an access that advances it: from 31 to 0, and only with auto-increment (R43, R44). -/
def MapUnit.advanced (m : MapUnit) : MapUnit := if m.autoInc then { m with index := m.index + 1 } else m

/-- The entry a MAPDATA read returns (R43). -/
def MapUnit.addressed (m : MapUnit) : MapEntry := (if m.selActive then m.active else m.shadow).entry m.index.val

/-- The word of an entry (section 10.7). -/
def MapEntry.word (e : MapEntry) : Word := packWord [(0, e.chan.val), (8, e.mode.code)]

/-- A read of MAPDATA (R43). -/
def readMapdata (s : State) : State :=
  { s.driveData s.map.addressed.word with map := s.map.advanced }

/-- MAPDATA_READ (R43). -/
def execMapdataRead (s : State) : Host.Outcome State Fault Refusal := .next (outOfReset readMapdata s)

/-- The entry a MAPDATA write asks to store; an UNUSED entry holds channel 0 (R44). -/
def entryOfWord (m : SlotMode) (w : Word) : MapEntry :=
  if m = .unused then {} else { mode := m, chan := chanField w 0 }

/-- Storing an entry in SHADOW at the slot index, which then advances (R44). -/
def MapUnit.storeEntry (m : MapUnit) (e : MapEntry) : MapUnit :=
  { m with shadow := { m.shadow with entries := m.shadow.entries.set m.index e } }.advanced

/-- A write to MAPDATA, by the first condition of R44 that holds. -/
def writeMapdata (w : Word) (s : State) : State :=
  if s.map.commit = .pending then mapIgnored s
  else if s.map.selActive then reject s
  else
    match modeOfCode (field w 8 2) with
    | none => reject s
    | some m => { s with map := s.map.storeEntry (entryOfWord m w) }

/-- MAPDATA_WRITE (R44). -/
def execMapdataWrite (w : Word) (s : State) : Host.Outcome State Fault Refusal := .next (outOfReset (writeMapdata w) s)

/-- A write to MAPHDR (R45). -/
def writeMaphdr (w : Word) (s : State) : State :=
  if s.map.commit = .pending then mapIgnored s
  else { s with map := { s.map with shadow := { s.map.shadow with len := ⟨field w 0 2 % 4, Nat.mod_lt _ (by decide)⟩ } } }

/-- MAPHDR_WRITE (R45). -/
def execMaphdrWrite (w : Word) (s : State) : Host.Outcome State Fault Refusal := .next (outOfReset (writeMaphdr w) s)

/-! ## The switch -/

/-- The switch notice at the units of channel c, with the new ACTIVE bank in place (R53). -/
def switchNotice (c : Chan) (s : State) : State :=
  let s1 := if s.map.active.gives .tx c then s else s.setTx c (s.chan c).tx.unmapped
  if s1.map.active.gives .rx c then s1 else peerUnmapped c (closeMsg c .unmapped s1)

/-- How many channels would write a descriptor if the message in progress of each channel chosen ended now; with two or more
the order of the descriptors is open (log entry 4). -/
def endings (s : State) (chosen : Chan → Bool) : Nat :=
  channels.countP fun c => chosen c && (s.chan c).rx.st.holdsReservation

/-- The commit state and MAPSTAT after a switch, with SHADOW copied into ACTIVE (R49). -/
def MapUnit.switched (m : MapUnit) : MapUnit :=
  { m with active := m.shadow, commit := .idle, result := .done, reason := .none, detail := 0 }

/-- A switch: the copy, COMMIT_DONE, and the notice to every channel (R49, R53). -/
def switchBanks (s : State) : State :=
  let s1 := raise .commitDone { s with map := s.map.switched }
  takeTogether (decide (2 ≤ endings s1 fun c => !s1.map.active.gives .rx c)) (channels.map switchNotice) s1

/-- SWITCH (R49): a pending commit completes; without one nothing happens (log entry 2). -/
def execSwitch (s : State) : Host.Outcome State Fault Refusal :=
  .next (outOfReset (fun s => if s.map.commit = .pending then switchBanks s else s) s)

/-! ## COMMIT and CANCEL -/

/-- The lowest SHADOW entry at or above the SHADOW frame length that is not UNUSED (check 2 of R46). -/
def Bank.beyond (b : Bank) : Option Nat :=
  (List.range 32).find? fun k => decide (b.slots ≤ k) && decide ((b.entry k).mode ≠ .unused)

/-- The lowest channel that receives with flow control and has no slot to send in (check 3 of R46). -/
def State.noReturnChan (s : State) (b : Bank) : Option Chan :=
  channels.find? fun c => (s.chan c).cfg.rx && (s.chan c).cfg.fc && b.noReturn c

/-- The checks of COMMIT in their order, with reason and detail of the first that fails (R46). -/
def commitCheck (s : State) : Option (Reason × Nat) :=
  if s.map.shadow.len ≠ s.map.active.len ∧ s.tim.st ≠ .off then some (.lengthLocked, 0)
  else
    match s.map.shadow.beyond with
    | some k => some (.slotBeyondFrame, k)
    | none =>
      match s.noReturnChan s.map.shadow with
      | some c => some (.noReturnPath, c.val)
      | none => none

/-- Whether a frame may be running, so that an accepted commit waits (R48). -/
def TimState.holdsSwitch : TimState → Bool
  | .locked | .driving | .flywheel => true
  | .off | .listen | .search => false

/-- An accepted commit (R48): MAPSTAT shows NONE; the switch waits or is made at once. -/
def acceptCommit (s : State) : State :=
  let m := { s.map with result := .none, reason := .none, detail := 0 }
  if s.tim.st.holdsSwitch then setCmd .pending .none 0x01 { s with map := { m with commit := .pending } }
  else setCmd .done .none 0x01 (switchBanks { s with map := m })

/-- A commit refused by a check (R47). -/
def refuseCommit (reason : Reason) (detail : Nat) (s : State) : State :=
  setCmd .refused reason 0x01
    (raiseRefused reason { s with map := { s.map with result := .refused, reason := reason, detail := detail } })

/-- The COMMIT command (R46 to R48). -/
def commitCmd (s : State) : State :=
  if s.map.commit = .pending then setCmd .refused .busy 0x01 s
  else
    match commitCheck s with
    | some (reason, detail) => refuseCommit reason detail s
    | none => acceptCommit s

/-- COMMIT (R46). -/
def execCommit (s : State) : Host.Outcome State Fault Refusal := .next (outOfReset commitCmd s)

/-- The map unit after a pending commit is cancelled (R51, R58). -/
def MapUnit.cancelled (m : MapUnit) : MapUnit :=
  { m with commit := .idle, result := .cancelled, reason := .none, detail := 0 }

/-- The CANCEL command (R51). -/
def cancelCmd (s : State) : State :=
  if s.map.commit = .pending then setCmd .done .none 0x02 { s with map := s.map.cancelled }
  else setCmd .refused .nothingPending 0x02 s

/-- CANCEL (R51). -/
def execCancel (s : State) : Host.Outcome State Fault Refusal := .next (outOfReset cancelCmd s)

end Sys2Proof.Machine
end

