-- ==== Sys2Proof/Machine/Channels.lean ====
section
/-! DEFINITION. The channel records (spec 04): CHSEL, the CHCFG words with their checks and effects, CHSTICKY, FLUSH. -/

namespace Sys2Proof.Machine

open Sys2Proof

/-! ## CHSEL and CHSTICKY -/

/-- A write to CHSEL: the whole word is the channel number (R60, R179). -/
def writeChsel (w : Word) (s : State) : State :=
  if h : w.toNat < 8 then { s with chsel := ⟨w.toNat, h⟩ } else reject s

/-- The sticky flags after a write of a word: those whose position holds 1 are cleared (R76). -/
def Sticky.cleared (k : Sticky) (w : Word) : Sticky :=
  { parity := k.parity && !wbit w 0
    unknownCtrl := k.unknownCtrl && !wbit w 1
    txOverflow := k.txOverflow && !wbit w 2
    strayEcho := k.strayEcho && !wbit w 3
    starved := k.starved && !wbit w 4 }

/-- A write to CHSTICKY reaches the selected channel (R60, R76). -/
def writeChsticky (w : Word) (s : State) : State := s.setSticky s.chsel ((s.chan s.chsel).sticky.cleared w)

/-- CHSTICKY_WRITE (R76). -/
def execChstickyWrite (w : Word) (s : State) : Host.Outcome State Fault Refusal := .next (outOfReset (writeChsticky w) s)

/-! ## CHCFG0: the enables -/

/-- The check of R64 on the enables a write would leave. -/
def enablesBarred (s : State) (c : Chan) (rx fc : Bool) : Bool :=
  rx && fc && (s.map.active.noReturn c || (decide (s.map.commit = .pending) && s.map.shadow.noReturn c))

/-- The effects of stored enables on the units of channel c, given the enables held before (R66, R93, R123, R153). The local
pause is evaluated with the new enables in force. -/
def enablesStored (c : Chan) (old : ChanCfg) (s : State) : State :=
  let new := (s.chan c).cfg
  let s1 := if old.rx && !new.rx then discardMsg c s else s
  let s2 := if old.tx && !new.tx then txDisable c s1 else s1
  let s3 := if old.fc && !new.fc then letGo c s2 else s2
  evalPause c s3

/-- A write to CHCFG0 of the selected channel (R61, R64, R66). -/
def writeChcfg0 (w : Word) (s : State) : State :=
  let c := s.chsel
  let old := (s.chan c).cfg
  if enablesBarred s c (wbit w 0) (wbit w 2) then reject s
  else enablesStored c old (s.setCfg c { old with rx := wbit w 0, tx := wbit w 1, fc := wbit w 2 })

/-- RX_ENABLE_SET (R123): the CHCFG0 write of its word. -/
def execRxEnableSet (w : Word) (s : State) : Host.Outcome State Fault Refusal := .next (outOfReset (writeChcfg0 w) s)

/-- RX_ENABLE_CLEAR (R123): the CHCFG0 write of its word. -/
def execRxEnableClear (w : Word) (s : State) : Host.Outcome State Fault Refusal := .next (outOfReset (writeChcfg0 w) s)

/-- TX_ENABLE_SET (R94): the CHCFG0 write of its word. -/
def execTxEnableSet (w : Word) (s : State) : Host.Outcome State Fault Refusal := .next (outOfReset (writeChcfg0 w) s)

/-- TX_ENABLE_CLEAR (R93): the CHCFG0 write of its word. -/
def execTxEnableClear (w : Word) (s : State) : Host.Outcome State Fault Refusal := .next (outOfReset (writeChcfg0 w) s)

/-- FC_ENABLE_SET (R153): the CHCFG0 write of its word. -/
def execFcEnableSet (w : Word) (s : State) : Host.Outcome State Fault Refusal := .next (outOfReset (writeChcfg0 w) s)

/-- FC_ENABLE_CLEAR (R153): the CHCFG0 write of its word. -/
def execFcEnableClear (w : Word) (s : State) : Host.Outcome State Fault Refusal := .next (outOfReset (writeChcfg0 w) s)

/-! ## CHCFG1 to CHCFG7 -/

/-- The configuration a write of `w` to CHCFGn (n from 1 to 7) asks for, its fields in their positions (section 10.7). -/
def ChanCfg.written (g : ChanCfg) (n : Fin 8) (w : Word) : ChanCfg :=
  match n with
  | 0 => { g with rx := wbit w 0, tx := wbit w 1, fc := wbit w 2 }
  | 1 => { g with quota := field w 0 8 }
  | 2 => { g with hw := field w 0 8 }
  | 3 => { g with lw := field w 0 8 }
  | 4 => { g with maxLen := field w 0 12 }
  | 5 => { g with gapLimit := field w 0 8, p := field w 8 4 }
  | 6 => { g with h := field w 0 6, restartLimit := field w 8 3, collLimit := field w 12 4 }
  | 7 => { g with spaceLevel := field w 0 10 }

/-- The check of a write to CHCFGn (n from 1 to 7), on the fields that word carries: its ranges (R62), and for the words of
the triple the orderings with the other two fields as held (R63). -/
def ChanCfg.wordOk (g : ChanCfg) (n : Fin 8) : Bool :=
  match n with
  | 0 => true
  | 1 => decide (1 ≤ g.quota ∧ g.quota ≤ 128) && decide (g.lw < g.hw) && decide (g.hw ≤ g.quota)
  | 2 => decide (1 ≤ g.hw ∧ g.hw ≤ 128) && decide (g.lw < g.hw) && decide (g.hw ≤ g.quota)
  | 3 => decide (g.lw ≤ 127) && decide (g.lw < g.hw) && decide (g.hw ≤ g.quota)
  | 4 => decide (1 ≤ g.maxLen ∧ g.maxLen ≤ 2048)
  | 5 => decide (g.gapLimit ≤ 255) && decide (1 ≤ g.p ∧ g.p ≤ 15)
  | 6 => decide (2 ≤ g.h ∧ g.h ≤ 63) && decide (g.restartLimit ≤ 7) && decide (1 ≤ g.collLimit ∧ g.collLimit ≤ 15)
  | 7 => decide (g.spaceLevel ≤ 512)

/-- A write to CHCFGn of the selected channel: checked whole, stored at once; a new HW or LW evaluates the QUOTA cause
(R61 to R65). -/
def writeChcfg (n : Fin 8) (w : Word) (s : State) : State :=
  if n = 0 then writeChcfg0 w s
  else
    let g := (s.chan s.chsel).cfg.written n w
    if g.wordOk n then
      let s1 := s.setCfg s.chsel g
      if n = 2 ∨ n = 3 then evalQuota s.chsel s1 else s1
    else reject s

/-- CHCFG_WRITE (R61). -/
def execChcfgWrite (n : Fin 8) (w : Word) (s : State) : Host.Outcome State Fault Refusal :=
  .next (outOfReset (writeChcfg n w) s)

/-! ## FLUSH -/

/-- FLUSH(c) on every side of channel c in one step (R68 to R71), with its result. -/
def flushCmd (c : Chan) (s : State) : State :=
  let s1 := s.setTx c (s.chan c).tx.flush
  let s2 := discardMsg c s1
  let s3 := s2.setRx c (s2.chan c).rx.idled
  let s4 := s3.setFl c { (s3.chan c).fl with host := false, held := false, holdCnt := 0 }
  let s5 := evalQuota c s4
  setCmd .done .none (BitVec.ofNat 8 (0x10 + c.val)) (s5.setSticky c {})

/-- FLUSH (R68). -/
def execFlush (c : Chan) (s : State) : Host.Outcome State Fault Refusal := .next (outOfReset (flushCmd c) s)

end Sys2Proof.Machine
end

