-- ==== Sys2Proof/Machine/Highway.lean ====
section
/-! DEFINITION. The slot engine (spec 01): slots of a frame, TX_SLOT, ECHO_RESULT, RX_WORD, the levels of the highway pins, and
the abandoning of a slot. -/

namespace Sys2Proof.Machine

open Sys2Proof

/-! ## Slots -/

/-- Slot k begins: its ACTIVE entry is read and kept (R9). -/
def beginSlot (k : Nat) (s : State) : State :=
  let e := s.map.active.entry k
  { s with slot := .inSlot { number := k, entry := e, work := e.mode, word := none, bits := [] } }

/-- The slot in progress has ended: the next begins, or the frame stands with every slot worked (R8). -/
def advanceSlot (k : Nat) (s : State) : State :=
  if k + 1 < s.map.active.slots then beginSlot (k + 1) s else { s with slot := .frameDone }

/-- Slot 0 begins at a sync pulse that the part samples: its bit 0 is the sample at that edge, and a TX slot is worked as an
UNUSED one (R8). -/
def beginSampledSlot (s : State) : State :=
  let e := s.map.active.entry 0
  { s with slot := .inSlot { number := 0, entry := e, work := if e.mode = .tx then .unused else e.mode,
                             word := none, bits := [s.dataSample] } }

/-- Slot 0 begins as R9 gives, its bit 0 sampled at the edge just taken (log entry 6). -/
def beginSlotAtEdge (s : State) : State :=
  let e := s.map.active.entry 0
  { s with slot := .inSlot { number := 0, entry := e, work := e.mode, word := none, bits := [s.dataSample] } }

/-- The marks of the frame in progress are cleared when slot 0 of a frame that follows no frame boundary begins (R73,
R119). -/
def freshFrame (s : State) : State :=
  takeAll (channels.map fun c t => (clearSeen c t).setPeer c { (t.chan c).peer with mark := false }) s

/-- A frame begins at a sampled pulse: at a lock, a re-lock or a slip (R8, R73, R119). -/
def beginFrameAtPulse (s : State) : State := beginSampledSlot (freshFrame s)

/-- The bits of the slot with one more sample; a slot takes eleven (R4). -/
def Slot.sampled (x : Slot) (data : Bool) : Slot :=
  if x.bits.length < 11 then { x with bits := x.bits ++ [data] } else x

/-- A rising edge at the slot engine: the sample joins the slot in progress; an UNUSED slot ends with its eleventh bit
(R8, R9, R11, R12). -/
def slotEdge (data : Bool) (s : State) : State :=
  match s.slot with
  | .inSlot x =>
    let y := x.sampled data
    if y.work = .unused && decide (y.bits.length = 11) then advanceSlot y.number s
    else { s with slot := .inSlot y }
  | .idle => s
  | .frameDone => s

/-! ## TX_SLOT -/

/-- The word of a TX slot of channel c is chosen, built and driven (R10, R81). -/
def driveWord (x : Slot) (s : State) : State :=
  let c := x.entry.chan
  let k := chooseKind (s.chan c)
  let w := (s.chan c).tx.wordOf k
  { keepWord c k s with slot := .inSlot { x with word := some w } }

/-- The first bit of the TX slot in progress; where there is none, or its word is chosen, nothing happens (log entry 3). -/
def txSlotStep (s : State) : State :=
  match s.slot with
  | .inSlot x => if decide (x.work = .tx) && x.word.isNone then driveWord x s else s
  | .idle => s
  | .frameDone => s

/-- TX_SLOT (R81). -/
def execTxSlot (s : State) : Host.Outcome State Fault Refusal := .next (outOfReset txSlotStep s)

/-! ## ECHO_RESULT -/

/-- The echo result is reported to transmit unit c, and to flow unit c for a flow word (R11); the flow unit acts the same
whatever tx_enable holds (R149). -/
def reportEcho (c : Chan) (ok : Bool) (s : State) : State :=
  let s1 := txEcho c ok s
  s1.setFl c ((s1.chan c).fl.echo ok)

/-- The end of the TX slot in progress: the eleven bits read back against the eleven driven (R11). Where no TX slot stands
complete, nothing happens (log entry 3). -/
def echoStep (s : State) : State :=
  match s.slot with
  | .inSlot x =>
    match x.word with
    | some w =>
      if decide (x.work = .tx) && decide (x.bits.length = 11) then
        advanceSlot x.number (reportEcho x.entry.chan (decide (x.bits = wordBits w)) s)
      else s
    | none => s
  | .idle => s
  | .frameDone => s

/-- ECHO_RESULT (R11). -/
def execEchoResult (s : State) : Host.Outcome State Fault Refusal := .next (outOfReset echoStep s)

/-! ## RX_WORD -/

/-- A classified word is delivered to the units of channel c (R13). -/
def deliver (c : Chan) (k : RxClass) (s : State) : State :=
  let s1 := if k = .silent then s else s.setPeer c { (s.chan c).peer with mark := true }
  match k with
  | .silent => s1
  | .idle => s1
  | .corrupt => takeCorrupt c s1
  | .data b => takeMessageWord c b false s1
  | .last b => takeMessageWord c b true s1
  | .abort => takeAbort c s1
  | .pause => takePause c s1
  | .resume => takeResume c s1
  | .unknownCtrl => s1.setSticky c { (s1.chan c).sticky with unknownCtrl := true }

/-- The end of the RX slot in progress (R12, R13). Where no RX slot stands complete, nothing happens (log entry 3). -/
def rxWordStep (s : State) : State :=
  match s.slot with
  | .inSlot x =>
    if decide (x.work = .rx) && decide (x.bits.length = 11) then
      advanceSlot x.number (deliver x.entry.chan (classify (wordOfBits x.bits)) s)
    else s
  | .idle => s
  | .frameDone => s

/-- RX_WORD (R13). -/
def execRxWord (s : State) : Host.Outcome State Fault Refusal := .next (outOfReset rxWordStep s)

/-! ## The highway pins (R1, R2, R19) -/

/-- The frame length F in rising edges of HWCLK (R18). -/
def State.frameEdges (s : State) : Nat := 11 * s.map.active.slots

/-- HWCLK and HWSYNC are outputs while the timing state is DRIVING (R1, R19). -/
def State.drivesClock (s : State) : Bool := decide (s.tim.st = .driving)

/-- The level of the driven HWCLK: low for half the bit period, rounded up, then high (R17); none while it is an input. -/
def State.hwclkPin (s : State) : Option Bool :=
  if s.drivesClock then some (decide ((s.gen.div + 1) / 2 ≤ s.gen.ref)) else none

/-- The level of the driven HWSYNC: high during bit period 0 of each frame the part makes, which is bit period 0 of the local
frame period, and low in every other (R17, R19, R25); none while it is an input. -/
def State.hwsyncPin (s : State) : Option Bool :=
  if s.drivesClock then some (decide (s.gen.bit = 0)) else none

/-- Whether the slot in progress pulls HWDATA low for the bit that the next rising edge samples: a TX slot does, for each 0 bit
of its word (R1, R10). -/
def State.slotPulls (s : State) : Bool :=
  match s.slot with
  | .inSlot x =>
    match x.word with
    | some w => decide (x.bits.length < 11) && !w.getMsbD x.bits.length
    | none => false
  | .idle => false
  | .frameDone => false

/-- A pull is left from an abandoned slot (R15). -/
def DataHold.pulls : DataHold → Bool
  | .released => false
  | .toLocalBit => true
  | .toLineBit _ => true

/-- The next bit period of the local generator begins: a pull it times ends (R15, R17). -/
def DataHold.atLocalBit : DataHold → DataHold
  | .released => .released
  | .toLocalBit => .released
  | .toLineBit ended => .toLineBit ended

/-- An end of a local frame period, at which a bit period of the local generator begins. A pull timed by HWCLK that has stood
from one end to the next has seen a whole local frame period without an edge of HWCLK, each of which ends it: HWCLK has stopped, no
bit period of it is to be waited for, and HWDATA is released (R15, R17; log entry 25). -/
def DataHold.atPeriodEnd : DataHold → DataHold
  | .released => .released
  | .toLocalBit => .released
  | .toLineBit ended => if ended then .released else .toLineBit true

/-- Whether the part pulls HWDATA low for the bit that the next rising edge samples (R1, R10, R15). -/
def State.pullsData (s : State) : Bool := s.dataHeld.pulls || s.slotPulls

/-- Whether the bit period that the next rising edge samples has begun: HWCLK is low, as the part drives it or as it falls (R2,
R17). -/
def State.bitBegun (s : State) : Bool :=
  match s.hwclkPin with
  | some high => !high
  | none => s.hwclkLow

/-! ## The abandoning of a slot (R15) -/

/-- The hold of HWDATA after a slot in progress is abandoned: a bit period that has begun is one of the local generator in
DRIVING and one of HWCLK elsewhere (R15, R17). -/
def State.holdLeft (s : State) : DataHold :=
  if s.slotPulls && s.bitBegun then (if s.drivesClock then .toLocalBit else .toLineBit false) else s.dataHeld

/-- A slot in progress is abandoned: HWDATA stays pulled for the rest of a bit period that has begun, and is released from the
next (R15). -/
def dropSlot (s : State) : State := { s with slot := .idle, dataHeld := s.holdLeft }

/-- What a happening after a slot's last bit does first: the slot is not abandoned, and its result is delivered (R15). -/
def settleSlot (s : State) : State := rxWordStep (echoStep s)

/-- No slot is in progress from here: one whose eleven bits have been worked delivers its result, any other is abandoned
(R15). -/
def abandonSlot (s : State) : State := dropSlot (settleSlot s)

end Sys2Proof.Machine
end

