-- ==== Sys2Proof/WellFormed.lean ====
section
/-! DEFINITION. Which commands are the row they are written as: a command code that names no command, an offset without a
row of its own, a written word that carries the enable value its row names. -/

namespace Sys2Proof

/-- The codes that name a command (spec 10, R176). -/
def WellFormed.codeNamed (code : BitVec 8) : Bool :=
  let n := code.toNat
  (1 ≤ n && n ≤ 4) || n = 0x0F || (0x10 ≤ n && n ≤ 0x17) || (0x20 ≤ n && n ≤ 0x2F)

/-- The offsets whose writes have a row of their own (spec 10, section 10.6 and opcode_table.json). TIMCFG has one only for
writes that change enable, so it stays with REGISTER_WRITE too. -/
def WellFormed.offsetHasRow (off : BitVec 6) : Bool :=
  let n := off.toNat
  n = 0x01 || n = 0x02 || n = 0x08 || n = 0x0A || n = 0x11 || n = 0x13 || n = 0x14 || n = 0x17 ||
    (0x18 ≤ n && n ≤ 0x1F) || (0x20 ≤ n && n ≤ 0x27)

/-- A command is well formed when its operands are those of its row. -/
def Instr.wf : Instr → Bool
  | .unknownCommand code => !WellFormed.codeNamed code
  | .registerWrite off _ => !WellFormed.offsetHasRow off
  | .timingEnable w => w.getLsbD 15
  | .timingDisable w => !w.getLsbD 15
  | .rxEnableSet w => w.getLsbD 0
  | .rxEnableClear w => !w.getLsbD 0
  | .txEnableSet w => w.getLsbD 1
  | .txEnableClear w => !w.getLsbD 1
  | .fcEnableSet w => w.getLsbD 2
  | .fcEnableClear w => !w.getLsbD 2
  | .resetAssert => true
  | .resetRelease => true
  | .softReset => true
  | .commit => true
  | .cancel => true
  | .timingRestart => true
  | .release => true
  | .flush _ => true
  | .hostPause _ => true
  | .hostResume _ => true
  | .chcfgWrite _ _ => true
  | .txdata _ _ => true
  | .mapdataWrite _ => true
  | .mapdataRead => true
  | .maphdrWrite _ => true
  | .rxdataRead => true
  | .rxoffsetWrite _ => true
  | .causeRead => true
  | .chstickyWrite _ => true
  | .cmdstatWrite _ => true
  | .poolcfgWrite _ => true
  | .ringcfgWrite _ => true
  | .syncPulse => true
  | .frameBoundary _ => true
  | .localFramePeriodEnd _ => true
  | .txSlot => true
  | .echoResult => true
  | .rxWord => true
  | .listenWindow => true
  | .holdoffLimit => true
  | .flywheelExpiry => true
  | .clockLost => true
  | .debounceComplete => true
  | .gapExpiry _ => true
  | .refresh _ => true
  | .holdExpired _ => true
  | .peerAbsent _ => true
  | .readyTimeout => true
  | .switch => true
  | .hwclkRisingEdge _ _ => true

end Sys2Proof
end

