-- ==== Sys2Proof/Decode.lean ====
section
/-! DEFINITION. What reads a command from bits. The table gives no row bits (the part fetches nothing), so
`decodeTableWord` answers none for every word. The decoder the part does have is the host port's: `ofBusWrite` names the
row of a host write from its word offset and its word (spec 10, R174, R176), and `busWrite` is the write a row stands for. -/

namespace Sys2Proof

/-- The command a table word spells: none, since spec/opcode_table.json gives bits to no row. -/
def decodeTableWord (_nbits _w : Nat) : Option Instr := none

/-- The low three bits of a number, as a channel. -/
def chanOf (n : Nat) : Chan := ⟨n % 8, Nat.mod_lt _ (by decide)⟩

/-- The command of a code written to COMMAND (R176). -/
def ofCommandCode (code : BitVec 8) : Instr :=
  let n := code.toNat
  if n = 0x01 then .commit
  else if n = 0x02 then .cancel
  else if n = 0x03 then .timingRestart
  else if n = 0x04 then .release
  else if n = 0x0F then .softReset
  else if 0x10 ≤ n ∧ n ≤ 0x17 then .flush (chanOf n)
  else if 0x20 ≤ n ∧ n ≤ 0x27 then .hostPause (chanOf n)
  else if 0x28 ≤ n ∧ n ≤ 0x2F then .hostResume (chanOf n)
  else .unknownCommand code

/-- The row of a host write of `w` at word offset `off` (R174, section 10.6). The rows that name a change of an enable
depend on the state: their writes are those of TIMCFG and CHCFG0. -/
def ofBusWrite (off : BitVec 6) (w : Word) : Instr :=
  let n := off.toNat
  if n = 0x01 then ofCommandCode (w.setWidth 8)
  else if n = 0x02 then .cmdstatWrite w
  else if n = 0x08 then .poolcfgWrite w
  else if n = 0x0A then .ringcfgWrite w
  else if n = 0x11 then .rxoffsetWrite w
  else if n = 0x13 then .mapdataWrite w
  else if n = 0x14 then .maphdrWrite w
  else if n = 0x17 then .chstickyWrite w
  else if 0x18 ≤ n ∧ n ≤ 0x1F then .chcfgWrite (chanOf n) w
  else if 0x20 ≤ n ∧ n ≤ 0x27 then .txdata (chanOf n) w
  else .registerWrite off w

/-- The rows that name a change of an enable: which of them a write is depends on the enable held, so `ofBusWrite` names
their writes by TIMCFG and CHCFG0. -/
def Instr.changesEnable : Instr → Bool
  | .timingEnable _ | .timingDisable _ | .rxEnableSet _ | .rxEnableClear _ | .txEnableSet _ | .txEnableClear _
  | .fcEnableSet _ | .fcEnableClear _ => true
  | _ => false

/-- The word offset and word by which the host commands a row, for the rows that are host writes; bits 15-8 of a COMMAND
word are ignored by the part and written as 0 here (R176). -/
def busWrite : Instr → Option (BitVec 6 × Word)
  | .softReset => some (0x01, 0x0F)
  | .commit => some (0x01, 0x01)
  | .cancel => some (0x01, 0x02)
  | .timingRestart => some (0x01, 0x03)
  | .release => some (0x01, 0x04)
  | .flush c => some (0x01, BitVec.ofNat 16 (0x10 + c.val))
  | .hostPause c => some (0x01, BitVec.ofNat 16 (0x20 + c.val))
  | .hostResume c => some (0x01, BitVec.ofNat 16 (0x28 + c.val))
  | .unknownCommand code => some (0x01, code.setWidth 16)
  | .timingEnable w => some (0x04, w)
  | .timingDisable w => some (0x04, w)
  | .rxEnableSet w => some (0x18, w)
  | .rxEnableClear w => some (0x18, w)
  | .txEnableSet w => some (0x18, w)
  | .txEnableClear w => some (0x18, w)
  | .fcEnableSet w => some (0x18, w)
  | .fcEnableClear w => some (0x18, w)
  | .chcfgWrite n w => some (BitVec.ofNat 6 (0x18 + n.val), w)
  | .txdata c w => some (BitVec.ofNat 6 (0x20 + c.val), w)
  | .mapdataWrite w => some (0x13, w)
  | .maphdrWrite w => some (0x14, w)
  | .rxoffsetWrite w => some (0x11, w)
  | .chstickyWrite w => some (0x17, w)
  | .cmdstatWrite w => some (0x02, w)
  | .poolcfgWrite w => some (0x08, w)
  | .ringcfgWrite w => some (0x0A, w)
  | .registerWrite off w => some (off, w)
  | .resetAssert => none
  | .resetRelease => none
  | .mapdataRead => none
  | .rxdataRead => none
  | .causeRead => none
  | .syncPulse => none
  | .frameBoundary _ => none
  | .localFramePeriodEnd _ => none
  | .txSlot => none
  | .echoResult => none
  | .rxWord => none
  | .listenWindow => none
  | .holdoffLimit => none
  | .flywheelExpiry => none
  | .clockLost => none
  | .debounceComplete => none
  | .gapExpiry _ => none
  | .refresh _ => none
  | .holdExpired _ => none
  | .peerAbsent _ => none
  | .readyTimeout => none
  | .switch => none
  | .hwclkRisingEdge _ _ => none

end Sys2Proof
end

