-- ==== Sys2Proof/Machine/TimingUnit.lean ====
section
/-! DEFINITION. The timing unit (spec 02): its configuration, states and transitions, sync pulses, frame boundaries, local
frame periods, line sense and traffic aborts. -/

namespace Sys2Proof.Machine

open Sys2Proof

/-! ## Traffic aborts and falls -/

/-- A traffic abort at the three units of channel c (R37, R91, R121, R150). -/
def abortChan (c : Chan) (s : State) : State :=
  let s1 := closeMsg c .sync s
  let x := s1.chan c
  s1.setChan c { x with tx := x.tx.trafficAbort, fl := x.fl.trafficAbort }

/-- Whether a commit is pending. -/
def State.switchPending (s : State) : Bool := decide (s.map.commit = .pending)

/-- A traffic abort that leaves a pending commit waiting: at a slip or a loss of HWCLK (R37, R50). -/
def trafficAbort (s : State) : State :=
  takeTogether (decide (2 ≤ endings s fun _ => true)) (channels.map abortChan) s

/-- What a fall of the timing state brings: a traffic abort where the fall issues one, and the switch of a pending commit
(R37, R50); the order of the two is open (R54). -/
def fall (aborts : Bool) (s : State) : State :=
  takeTogether (aborts && (s.switchPending || decide (2 ≤ endings s fun _ => true)))
    ((if aborts then channels.map abortChan else []) ++ (if s.switchPending then [switchBanks] else [])) s

/-- The states whose end by the host issues a traffic abort (R21, R22). -/
def TimState.aborts : TimState → Bool
  | .locked | .driving | .flywheel => true
  | .off | .listen | .search => false

/-! ## TIMCFG, REFDIV, TIMING_RESTART -/

/-- The state a timing unit of a role enters when it is enabled (R20). -/
def entryState (r : Role) : TimState := if r = .master then .listen else .search

/-- The timing unit at its entry state (R20). -/
def Timing.entered (t : Timing) : Timing :=
  { t with st := entryState t.role, align := none, cand := none, bridge := false, listenCnt := 0, holdoffCnt := 0,
           flyCnt := 0 }

/-- The timing unit disabled (R21). No positions are counted in OFF (R18), so the edge count starts anew. -/
def Timing.disabled (t : Timing) : Timing :=
  { t with st := .off, align := none, cand := none, bridge := false, listenCnt := 0, holdoffCnt := 0, flyCnt := 0,
           yielded := false, pos := 0, lastSync := none, pulse := false }

/-- Enable 1 to 0 (R21): the slot in progress is abandoned (R15), the frame ends without a boundary. -/
def disableTiming (s : State) : State :=
  fall s.tim.st.aborts { abandonSlot s with tim := s.tim.disabled }

/-- The TIMCFG fields of a word that is accepted; none where the write is rejected (R16, R179). -/
def timcfgAccepted (t : Timing) (w : Word) : Option Timing :=
  match roleOfCode (field w 0 2) with
  | none => none
  | some role =>
    let rank := chanField w 4
    let limit := field w 8 4
    if limit = 0 then none
    else if t.enable && (decide (role ≠ t.role) || decide (rank ≠ t.rank)) then none
    else some { t with role := role, rank := rank, limit := limit, enable := wbit w 15 }

/-- A write to TIMCFG (R16), with the transition that a change of enable makes (R20, R21). -/
def writeTimcfg (w : Word) (s : State) : State :=
  match timcfgAccepted s.tim w with
  | none => reject s
  | some t =>
    if t.enable && !s.tim.enable then { s with tim := t.entered }
    else if !t.enable && s.tim.enable then disableTiming { s with tim := t }
    else { s with tim := t }

/-- TIMING_ENABLE (R20): the TIMCFG write of its word. -/
def execTimingEnable (w : Word) (s : State) : Host.Outcome State Fault Refusal := .next (outOfReset (writeTimcfg w) s)

/-- TIMING_DISABLE (R21): the TIMCFG write of its word. -/
def execTimingDisable (w : Word) (s : State) : Host.Outcome State Fault Refusal := .next (outOfReset (writeTimcfg w) s)

/-- A write to REFDIV: the whole word is the divisor (R16, R179). -/
def writeRefdiv (w : Word) (s : State) : State :=
  if s.tim.enable || decide (w.toNat < 2) || decide (1023 < w.toNat) then reject s
  else { s with tim := { s.tim with refdiv := w.toNat } }

/-- The TIMING_RESTART command (R22). -/
def timingRestartCmd (s : State) : State :=
  if s.tim.st = .off then setCmd .refused .notRunning 0x03 s
  else
    setCmd .done .none 0x03
      (fall s.tim.st.aborts { abandonSlot s with tim := { s.tim.entered with yielded := false } })

/-- TIMING_RESTART (R22). -/
def execTimingRestart (s : State) : Host.Outcome State Fault Refusal := .next (outOfReset timingRestartCmd s)

/-! ## Frame boundaries -/

/-- The frame counter's increase (R35). -/
def countFrame (s : State) : State := { s with tim := { s.tim with frameCnt := s.tim.frameCnt + 1 } }

/-- Whether the order of a boundary's happenings can be told: a message ends at it, or a commit switches at it (R55, R129,
R137). -/
def boundaryOpen (s : State) : Bool := s.switchPending || channels.any fun c => gapDue (s.chan c)

/-- What a frame boundary brings to the blocks that keep highway-frame timers (R36): refresh and hold counting, and, in an
order that is open where it can be told, the frame counter, the ready timer, the gap counts, peer presence and the switch of
a pending commit. -/
def boundaryWork (s : State) : State :=
  let s1 := takeAll (channels.map refreshStep ++ channels.map holdStep) s
  takeTogether (boundaryOpen s1)
    ([countFrame, readyStep] ++ channels.map gapStep ++ channels.map (peerStep s1.map.active)
      ++ (if s1.switchPending then [switchBanks] else [])) s1

/-- The next frame begins one frame after the last, with slot 0 worked as any slot (R8, R9, R27). -/
def beginNextFrame (s : State) : State :=
  beginSlot 0 { s with tim := { s.tim with align := s.tim.align.map fun a => a + s.frameEdges } }

/-- Entry to FLYWHEEL (R28): the counter is 1, the bridge mark clear, a candidate kept, no slot in progress. -/
def enterFlywheel (s : State) : State :=
  { s with tim := { s.tim with st := .flywheel, flyCnt := 1, bridge := false }, slot := .idle }

/-- The expected position in LOCKED once the boundary is issued: with its pulse, as a bridge frame, or into FLYWHEEL (R27,
R28). -/
def lockedBoundary (pulse : Bool) (s : State) : State :=
  if pulse then beginNextFrame { s with tim := { s.tim with cand := none, bridge := false } }
  else if s.tim.cand.isSome && !s.tim.bridge then beginNextFrame { s with tim := { s.tim with bridge := true } }
  else enterFlywheel s

/-- The end of a frame of which every slot has been worked (R36); at any other time nothing happens (log entry 3). -/
def frameBoundaryStep (pulse : Bool) (s : State) : State :=
  if s.slot = .frameDone then
    match s.tim.st with
    | .driving => beginNextFrame (boundaryWork s)
    | .locked => lockedBoundary pulse (boundaryWork s)
    | .off => s
    | .listen => s
    | .search => s
    | .flywheel => s
  else s

/-- FRAME_BOUNDARY (R36). -/
def execFrameBoundary (pulse : Bool) (s : State) : Host.Outcome State Fault Refusal :=
  .next (outOfReset (frameBoundaryStep pulse) s)

/-! ## Sync pulses -/

/-- The lock is found (R26). -/
def lockFound (s : State) : State :=
  beginFrameAtPulse (raise .locked
    { s with tim := { s.tim with st := .locked, align := some s.tim.pos, cand := none, bridge := false, holdoffCnt := 0 } })

/-- A pulse in SEARCH (R26, R31). -/
def pulseInSearch (s : State) : State :=
  if s.tim.align.map (fun a => a + s.frameEdges) = some s.tim.pos then lockFound s
  else { s with tim := { s.tim with align := some s.tim.pos, holdoffCnt := 0 } }

/-- A pulse in LISTEN (R24). -/
def pulseInListen (s : State) : State :=
  let t := { s.tim with st := TimState.search, align := some s.tim.pos, listenCnt := 0, holdoffCnt := 0 }
  if s.tim.role = .master then raise .masterYielded { s with tim := { t with yielded := true } }
  else { s with tim := t }

/-- Whether the pulse at the present position is one frame after the candidate (R18). -/
def State.atCandidate (s : State) : Bool := decide (s.tim.cand.map (fun p => p + s.frameEdges) = some s.tim.pos)

/-- Whether the present position lies a whole number of frames after the sync alignment (R18). -/
def State.onAlignment (s : State) : Bool :=
  match s.tim.align with
  | some a => decide (a ≤ s.tim.pos) && decide ((s.tim.pos - a) % s.frameEdges = 0)
  | none => false

/-- Mastership conflict in DRIVING (R25). The pulse stands at the edge just taken, so a slot in progress has not ended before it:
the slot is abandoned, and HWDATA is released from the next bit period, which has not begun (R15; log entry 25). -/
def conflict (s : State) : State :=
  fall true (raise .masterYielded
    { s with
      tim := { s.tim with st := .search, align := some s.tim.pos, cand := none, bridge := false, holdoffCnt := 0,
                          yielded := true, loss := .conflict }
      slot := .idle })

/-- A pulse in DRIVING (R25): its own needs no action. -/
def pulseInDriving (s : State) : State := if s.onAlignment then s else conflict s

/-- Realignment to the candidate (R29): the slot in progress at the pulse's edge is abandoned, as at a conflict, the abort is
issued, slot 0 begins. -/
def realign (s : State) : State :=
  beginFrameAtPulse (trafficAbort (raise .slip
    { s with
      tim := { s.tim with st := .locked, align := some s.tim.pos, cand := none, bridge := false, flyCnt := 0,
                          loss := .slip }
      slot := .idle }))

/-- A stray pulse becomes the candidate (R27, R30). -/
def strayPulse (s : State) : State := { s with tim := { s.tim with cand := some s.tim.pos } }

/-- The pulse that begins the frame in progress, or one frame after its start, in LOCKED. -/
def State.atExpected (s : State) : Bool :=
  decide (s.tim.align = some s.tim.pos) || decide (s.tim.align.map (fun a => a + s.frameEdges) = some s.tim.pos)

/-- The alignment at a pulse at the expected position, with no candidate and no bridge mark (R27). -/
def Timing.keptLock (t : Timing) : Timing := { t with align := some t.pos, cand := none, bridge := false }

/-- A pulse at the expected position in LOCKED (R27). When the frame's boundary has been taken, the pulse is that of the frame
in progress. When it has not, the pulse ends the frame and begins the next: with its boundary, and slot 0 worked as R9 gives,
if every slot was worked (R8, R36; log entry 6). -/
def pulseExpected (s : State) : State :=
  if s.tim.align = some s.tim.pos then { s with tim := s.tim.keptLock }
  else if s.slot = .frameDone then
    let s1 := boundaryWork s
    beginSlotAtEdge { s1 with tim := s1.tim.keptLock }
  else beginSampledSlot { s with tim := s.tim.keptLock }

/-- A pulse in LOCKED (R27, R29). -/
def pulseInLocked (s : State) : State :=
  if s.atExpected then pulseExpected s else if s.atCandidate then realign s else strayPulse s

/-- A re-lock at the old alignment (R30). -/
def relock (s : State) : State :=
  beginFrameAtPulse
    { s with tim := { s.tim with st := .locked, align := some s.tim.pos, cand := none, flyCnt := 0 } }

/-- A pulse in FLYWHEEL (R29, R30). -/
def pulseInFlywheel (s : State) : State :=
  if s.onAlignment then relock s else if s.atCandidate then realign s else strayPulse s

/-- The sync pulse of the latest rising edge is taken (R18); where there is none, nothing happens (log entry 3). -/
def syncPulseStep (s : State) : State :=
  if s.tim.pulse then
    let s1 : State := { s with tim := { s.tim with pulse := false } }
    match s.tim.st with
    | .off => s1
    | .listen => pulseInListen s1
    | .driving => pulseInDriving s1
    | .search => pulseInSearch s1
    | .locked => pulseInLocked s1
    | .flywheel => pulseInFlywheel s1
  else s

/-- SYNC_PULSE (R18). -/
def execSyncPulse (s : State) : Host.Outcome State Fault Refusal := .next (outOfReset syncPulseStep s)

/-! ## Rising edges of HWCLK -/

/-- A rising edge at the timing unit: the edge mark (R28); outside OFF the position count (R18) and the sync pulse of R3. -/
def Timing.edge (t : Timing) (sync : Bool) : Timing :=
  if t.st = .off then { t with edgeMark := true }
  else { t with edgeMark := true, pos := t.pos + 1, pulse := sync && decide (t.lastSync ≠ some true), lastSync := some sync }

/-- A rising edge of HWCLK with the sampled levels (R2, R3, R8, R28). The edge lies in a bit period of its own: a slot whose eleven
bits were taken before it has ended and delivers its result (R15), and a pull left from an abandoned slot ends with the bit
sampled. -/
def risingEdge (sync data : Bool) (s : State) : State :=
  slotEdge data { settleSlot s with tim := s.tim.edge sync, dataSample := data, hwclkLow := false, dataHeld := .released }

/-- HWCLK_RISING_EDGE (R28). -/
def execHwclkRisingEdge (sync data : Bool) (s : State) : Host.Outcome State Fault Refusal :=
  .next (outOfReset (risingEdge sync data) s)

/-! ## Line sense -/

/-- A debounced change of the line (R32), with its effect on the holdoff (R31) and on a deferred loss (R34). -/
def lineChange (up : Bool) (s : State) : State :=
  let t := { s.tim with lineUp := up, debounce := 0, holdoffCnt := 0 }
  if up then raise .lineUp { s with tim := t }
  else if s.tim.deferred then raise .lineDown { s with tim := { t with deferred := false, loss := .line } }
  else raise .lineDown { s with tim := t }

/-- A sample equal to the debounced state abandons a debounce; a high one resolves a deferred loss (R32, R34). -/
def lineSteady (s : State) : State :=
  if s.tim.deferred && s.tim.lineUp then
    raise .syncLost { s with tim := { s.tim with debounce := 0, deferred := false, loss := .sync } }
  else { s with tim := { s.tim with debounce := 0 } }

/-- The sample of raw HWSENSE at an end of a local frame period (R32). -/
def sampleLine (sense : Bool) (s : State) : State :=
  if sense = s.tim.lineUp then lineSteady s
  else if 8 ≤ s.tim.debounce + 1 then lineChange sense s
  else { s with tim := { s.tim with debounce := s.tim.debounce + 1 } }

/-- DEBOUNCE_COMPLETE (R32): the differing sample that brings the debounce counter to 8; with a lower counter nothing happens
(log entry 2). -/
def execDebounceComplete (s : State) : Host.Outcome State Fault Refusal :=
  .next (outOfReset (fun s => if 8 ≤ s.tim.debounce + 1
    then sampleLine (!s.tim.lineUp) { s with hwsense := !s.tim.lineUp } else s) s)

/-! ## Steps at an end of a local frame period -/

/-- A local frame period starts, with the frame length and the divisor then in force (R17). -/
def startPeriod (s : State) : State :=
  { s with gen := { div := s.tim.refdiv, ref := 0, len := s.map.active.slots, bit := 0 } }

/-- The part begins to drive (R19, R23). The moment is the end of a local frame period: the first driven frame begins with the
local frame period that starts there, so both lines are driven from the start of its bit period 0, HWSYNC high; a pull left on
HWDATA ends there (R15). -/
def enterDriving (s : State) : State :=
  let x : Source := if s.tim.role = .master then .masterActive else .tookOver
  startPeriod (beginSlot 0 (freshFrame (raise x
    { s with tim := { s.tim with st := .driving, listenCnt := 0, align := some (s.tim.pos + 1) }, dataHeld := .released })))

/-- The listen step (R23). -/
def listenStep (s : State) : State :=
  if 2 ≤ s.tim.listenCnt + 1 then enterDriving s
  else { s with tim := { s.tim with listenCnt := s.tim.listenCnt + 1 } }

/-- LISTEN_WINDOW (R23): the listen step that brings the counter to 2; at any other moment nothing happens (log entry 2). -/
def execListenWindow (s : State) : Host.Outcome State Fault Refusal :=
  .next (outOfReset (fun s => if decide (s.tim.st = .listen) && decide (2 ≤ s.tim.listenCnt + 1) then listenStep s else s) s)

/-- The holdoff limit (R31). -/
def Timing.holdoffLimit (t : Timing) : Nat := (t.rank.val + 1) * 4

/-- The holdoff runs in SEARCH, in role STANDBY, with the line UP (R31). -/
def Timing.holdoffRuns (t : Timing) : Bool := decide (t.st = .search) && decide (t.role = .standby) && t.lineUp

/-- The holdoff has reached its limit (R31). -/
def enterListen (s : State) : State := { s with tim := { s.tim with st := .listen, listenCnt := 0, holdoffCnt := 0 } }

/-- The holdoff step (R31). -/
def holdoffStep (s : State) : State :=
  if s.tim.holdoffLimit ≤ s.tim.holdoffCnt + 1 then enterListen s
  else { s with tim := { s.tim with holdoffCnt := s.tim.holdoffCnt + 1 } }

/-- HOLDOFF_LIMIT (R31): the holdoff step that reaches the limit; at any other moment nothing happens (log entry 2). -/
def execHoldoffLimit (s : State) : Host.Outcome State Fault Refusal :=
  .next (outOfReset (fun s => if s.tim.holdoffRuns && decide (s.tim.holdoffLimit ≤ s.tim.holdoffCnt + 1) then holdoffStep s else s) s)

/-- SYNC_LOST and the loss cause at a flywheel expiry, by the line state after the same end's sample (R33). -/
def settleLoss (s : State) : State :=
  if !s.tim.lineUp then { s with tim := { s.tim with loss := .line } }
  else if s.tim.debounce = 0 then raise .syncLost { s with tim := { s.tim with loss := .sync } }
  else { s with tim := { s.tim with deferred := true } }

/-- The flywheel expires (R30, R33, R37, R50). -/
def expireFlywheel (s : State) : State :=
  fall true (settleLoss
    { s with
      tim := { s.tim with st := .search, align := none, holdoffCnt := 0, cand := none, bridge := false, flyCnt := 0 }
      slot := .idle })

/-- The flywheel comparison (R30). -/
def flywheelStep (s : State) : State :=
  if s.tim.flyCnt < s.tim.limit then { s with tim := { s.tim with flyCnt := s.tim.flyCnt + 1 } }
  else expireFlywheel s

/-- FLYWHEEL_EXPIRY (R30): the flywheel comparison that finds the limit reached; at any other moment nothing happens (log
entry 2). -/
def execFlywheelExpiry (s : State) : Host.Outcome State Fault Refusal :=
  .next (outOfReset (fun s => if decide (s.tim.st = .flywheel) && decide (s.tim.limit ≤ s.tim.flyCnt) then flywheelStep s else s) s)

/-- The clock is lost (R28): the frame is abandoned without a boundary, its slot in progress as R15 gives. -/
def loseClock (s : State) : State := trafficAbort (enterFlywheel (abandonSlot s))

/-- The clock watch (R28). -/
def clockWatch (s : State) : State := if s.tim.edgeMark then s else loseClock s

/-- CLOCK_LOST (R28): the clock watch in LOCKED that finds the edge mark clear; at any other moment nothing happens (log
entry 2). -/
def execClockLost (s : State) : Host.Outcome State Fault Refusal :=
  .next (outOfReset (fun s => if decide (s.tim.st = .locked) && !s.tim.edgeMark then clockWatch s else s) s)

/-- The holdoff at an end of a local frame period at which it was running. A line that goes DOWN at the same end is taken
before it or after it (R39): a free value decides where that can be told. -/
def holdoffWithLine (s : State) : State :=
  if s.tim.lineUp then holdoffStep s else s

/-- The order of R39 for a holdoff that reaches its limit and a line that goes DOWN at the same end: with the holdoff taken
first the part is in LISTEN. -/
def holdoffOrLine (reaches : Bool) (s : State) : State :=
  if !s.tim.lineUp && reaches then
    let s1 : State := { s with arb := s.arb + 1 }
    if Config.order s.arb % 2 = 1 then enterListen s1 else s1
  else holdoffWithLine s

/-- The step that each timing state takes at an end of a local frame period, by the state before that end (log entry 14):
`t` is the timing unit before the end's line sample. -/
def periodStep (t : Timing) (s : State) : State :=
  match t.st with
  | .off => s
  | .listen => listenStep s
  | .search => if t.holdoffRuns then holdoffOrLine (decide (t.holdoffLimit ≤ t.holdoffCnt + 1)) s else s
  | .flywheel => flywheelStep s
  | .locked => clockWatch s
  | .driving => frameBoundaryStep false s

/-- A new local frame period begins, and the edge mark is cleared (R17, R28); a pull left on HWDATA ends with the local bit
period that timed it, and with a whole local frame period without an edge (R15; log entry 25). -/
def newPeriod (s : State) : State :=
  startPeriod { s with tim := { s.tim with edgeMark := false }, dataHeld := s.dataHeld.atPeriodEnd }

/-- The end of a local frame period (R17): the line sample, the step of the timing state, and the clearing of the edge
mark. In DRIVING it is the end of a highway frame, whose boundary is issued if it has not been (R25, R36). -/
def periodEnd (sense : Bool) (s : State) : State :=
  newPeriod (periodStep s.tim (sampleLine sense { s with hwsense := sense }))

/-- LOCAL_FRAME_PERIOD_END (R17). -/
def execLocalFramePeriodEnd (sense : Bool) (s : State) : Host.Outcome State Fault Refusal :=
  .next (outOfReset (periodEnd sense) s)

/-- One REFCLK period of the local frame generator (R17): the local bit period in progress keeps its length, as does the
local frame period; at the end of the latter the part takes it with the HWSENSE level held (log entry 1). A pull left on HWDATA
for a local bit period ends where the next one begins (R15). -/
def refclkTick (s : State) : State :=
  if s.gen.ref + 1 < s.gen.div then { s with gen := { s.gen with ref := s.gen.ref + 1 } }
  else if s.gen.bit + 1 < 11 * s.gen.len then
    { s with gen := { s.gen with div := s.tim.refdiv, ref := 0, bit := s.gen.bit + 1 }, dataHeld := s.dataHeld.atLocalBit }
  else periodEnd s.hwsense s

end Sys2Proof.Machine
end

