-- ==== Sys2Proof/Machine/Reset.lean ====
section
/-! DEFINITION. The two resets of the part (spec 10, R171 to R173): RESETn and the SOFT_RESET command. -/

namespace Sys2Proof.Machine

open Sys2Proof

/-! ## Hard reset -/

/-- The part while RESETn is low: every block holds the values of its reset rule, which are the fields' defaults, and the
data lines show 0 for the rest of a read strobe (R172); HWDATA is released at once (R15). Kept are what the part does not hold: the levels of the input lines with
the marks of the strobe in progress, the two queues, the model's counter. -/
def State.hardReset (s : State) : State :=
  { pending := s.pending, inputs := s.inputs, bus := s.bus, arb := s.arb, hwsense := s.hwsense, hwclkLow := s.hwclkLow
    resetn := false }

/-- RESET_ASSERT: RESETn goes low and the part takes its hard-reset state (R172). -/
def execResetAssert (s : State) : Host.Outcome State Fault Refusal := .next s.hardReset

/-- RESET_RELEASE: RESETn goes high; every block starts from its hard-reset values, held since RESETn fell, and the local
frame generator begins its first local frame period (R172). With RESETn high nothing happens (log entry 3). -/
def execResetRelease (s : State) : Host.Outcome State Fault Refusal :=
  .next (if s.resetn then s else { s with resetn := true, gen := {} })

/-! ## Soft reset -/

/-- The timing unit after a soft reset (R40). -/
def Timing.softReset (t : Timing) : Timing :=
  { role := t.role, rank := t.rank, limit := t.limit, refdiv := t.refdiv, lineUp := t.lineUp, debounce := t.debounce }

/-- The map unit after a soft reset (R58): a pending commit ends CANCELLED. -/
def MapUnit.softReset (m : MapUnit) : MapUnit := if m.commit = .pending then m.cancelled else m

/-- A channel after a soft reset: its configuration is kept (R59); presence, sticky flags and the three units take their
reset values (R74, R76, R99, R126, R158). -/
def Channel.softReset (x : Channel) : Channel := { cfg := x.cfg }

/-- The pool after a soft reset: every block is free again, in block order, and POOLCFG is kept (R126). The bytes of the
blocks stay (log entry 11). -/
def Pool.softReset (p : Pool) : Pool := { mem := p.mem, reserve := p.reserve, hyst := p.hyst }

/-- The ring after a soft reset: empty, with RINGCFG kept (R141). -/
def Ring.softReset (r : Ring) : Ring := { threshold := r.threshold, timeout := r.timeout }

/-- The event unit after a soft reset: the enables, INTEN and the view page are kept (R170). -/
def EventUnit.softReset (e : EventUnit) : EventUnit := { enable := e.enable, inten := e.inten, page := e.page }

/-- The part after a soft reset (R171); the local frame generator runs on, CHSEL and the two global flags are kept. The slot in
progress is abandoned, and a result not delivered before the reset does not occur (R15, R173; log entry 25). -/
def State.softReset (s : State) : State :=
  { dropSlot s with
    tim := s.tim.softReset
    map := s.map.softReset
    chans := s.chans.map Channel.softReset
    pool := s.pool.softReset
    ring := s.ring.softReset
    ev := s.ev.softReset }

/-- The SOFT_RESET command, never refused (R173). -/
def softResetCmd (s : State) : State := setCmd .done .none 0x0F s.softReset

/-- SOFT_RESET (R173). -/
def execSoftReset (s : State) : Host.Outcome State Fault Refusal := .next (outOfReset softResetCmd s)

end Sys2Proof.Machine
end

