-- ==== Sys2Proof/Machine/HostPort.lean ====
section
/-! DEFINITION. The host port (spec 10): what every register reads, the command port, CMDSTAT, and the writes at every word
offset. -/

namespace Sys2Proof.Machine

open Sys2Proof

/-! ## What the registers read (sections 10.6 and 10.7) -/

/-- IDENT (R175). -/
def identWord : Word := 0x0832

/-- CMDSTAT (R177, R178). -/
def State.cmdstatWord (s : State) : Word :=
  packWord [(0, s.cmd.result.code), (2, flagNat s.cfgReject), (3, flagNat s.mapBusy), (4, s.cmd.reason.code),
    (8, s.cmd.code.toNat)]

/-- INTCTL (R168). -/
def State.intctlWord (s : State) : Word := packWord [(0, flagNat s.ev.inten), (1, flagNat s.ev.page)]

/-- TIMCFG (R16). -/
def State.timcfgWord (s : State) : Word :=
  packWord [(0, s.tim.role.code), (4, s.tim.rank.val), (8, s.tim.limit), (15, flagNat s.tim.enable)]

/-- TIMSTAT (R38). -/
def State.timstatWord (s : State) : Word :=
  packWord [(0, s.tim.st.code), (4, flagNat (decide (s.tim.st = .driving))), (5, flagNat s.tim.lineUp),
    (6, flagNat s.hwsense), (7, flagNat s.tim.yielded), (8, s.tim.loss.code)]

/-- POOLCFG (R105). -/
def State.poolcfgWord (s : State) : Word := packWord [(0, s.pool.reserve), (8, s.pool.hyst)]

/-- RINGCFG (R136). -/
def State.ringcfgWord (s : State) : Word := packWord [(0, s.ring.threshold), (8, s.ring.timeout)]

/-- RINGSTAT (R139). -/
def State.ringstatWord (s : State) : Word := packWord [(0, s.ring.entries.length), (8, s.ring.reserved)]

/-- DESC0 to DESC3 of a descriptor (R130, R131); the first block reads 0 when there is none. -/
def Descriptor.word (d : Descriptor) : Nat → Word
  | 0 => packWord [(0, d.chan.val), (4, d.status.code), (8, flagNat d.damaged), (15, 1)]
  | 1 => packWord [(0, d.length)]
  | 2 => packWord [(0, d.seq.toNat), (8, match d.first with | some b => b.val | none => 0)]
  | _ => d.stamp

/-- DESCn: the head's word, or 0 when the ring is empty (R131). -/
def State.descWord (s : State) (n : Nat) : Word :=
  match s.ring.entries with
  | [] => 0
  | d :: _ => d.word n

/-- What a read of RXDATA would drive now (R132); its side effect is RXDATA_READ's. -/
def State.rxdataWord (s : State) : Word :=
  match s.ring.entries with
  | [] => 0x8000
  | d :: _ =>
    if s.ring.readOff = d.length then 0x4000
    else
      match s.messageByte d s.ring.readOff with
      | none => 0
      | some b => packWord [(0, b.toNat), (8, flagNat (s.ring.readOff + 1 = d.length))]

/-- MAPADDR (R42). -/
def State.mapaddrWord (s : State) : Word :=
  packWord [(0, s.map.index.val), (8, flagNat s.map.selActive), (15, flagNat s.map.autoInc)]

/-- MAPSTAT (R52). -/
def State.mapstatWord (s : State) : Word :=
  packWord [(0, s.map.commit.code), (1, s.map.result.code), (4, s.map.reason.code), (8, s.map.detail),
    (14, s.map.active.len.val)]

/-- CHSTICKY (R76). -/
def Sticky.word (k : Sticky) : Word :=
  packWord [(0, flagNat k.parity), (1, flagNat k.unknownCtrl), (2, flagNat k.txOverflow), (3, flagNat k.strayEcho),
    (4, flagNat k.starved)]

/-- CHCFGn (R61, section 10.7). -/
def ChanCfg.word (g : ChanCfg) (n : Fin 8) : Word :=
  match n with
  | 0 => packWord [(0, flagNat g.rx), (1, flagNat g.tx), (2, flagNat g.fc)]
  | 1 => packWord [(0, g.quota)]
  | 2 => packWord [(0, g.hw)]
  | 3 => packWord [(0, g.lw)]
  | 4 => packWord [(0, g.maxLen)]
  | 5 => packWord [(0, g.gapLimit), (8, g.p)]
  | 6 => packWord [(0, g.h), (8, g.restartLimit), (12, g.collLimit)]
  | 7 => packWord [(0, g.spaceLevel)]

/-- The head state of TXSTAT, with its code (R97). -/
def TxUnit.headCode (u : TxUnit) : Nat :=
  match u.records with
  | [] => 0
  | x :: _ => if x.closed then (if u.sending then 3 else 2) else 1

/-- TXSTAT(c) on a page (R97, R180). -/
def Channel.txstatWord (x : Channel) (page : Bool) : Word :=
  if page then packWord [(0, x.tx.headCode), (4, flagNat x.fl.held), (8, x.tx.lastDrop.code)]
  else packWord [(0, x.tx.freeBytes), (10, x.tx.records.length), (14, flagNat x.cfg.tx), (15, flagNat x.tx.abortOwed)]

/-- CHSTAT0 of a channel (R67). -/
def Channel.chstat0Word (x : Channel) : Word :=
  packWord [(0, x.rx.st.code), (3, flagNat x.rx.damaged), (4, flagNat x.fl.asserted), (5, flagNat x.fl.quota),
    (6, flagNat x.fl.pool), (7, flagNat x.fl.host), (8, flagNat x.fl.held), (9, flagNat x.peer.present)]

/-- CHSTAT1 of a channel on a page (R67, R180). -/
def Channel.chstat1Word (x : Channel) (page : Bool) : Word :=
  if page then packWord [(0, x.rx.seq.toNat)] else packWord [(0, x.held), (8, x.tx.coll), (12, x.tx.r)]

/-- The value of the register at a word offset as it stands (section 10.6), RESETn being high. -/
def State.registerValue (s : State) (off : BitVec 6) : Word :=
  let n := off.toNat
  if n = 0x00 then identWord
  else if n = 0x02 then s.cmdstatWord
  else if n = 0x03 then s.intctlWord
  else if n = 0x04 then s.timcfgWord
  else if n = 0x05 then packWord [(0, s.tim.refdiv)]
  else if n = 0x06 then s.timstatWord
  else if n = 0x07 then s.tim.frameCnt
  else if n = 0x08 then s.poolcfgWord
  else if n = 0x09 then packWord [(0, s.pool.free.length)]
  else if n = 0x0A then s.ringcfgWord
  else if n = 0x0B then s.ringstatWord
  else if 0x0C ≤ n ∧ n ≤ 0x0F then s.descWord (n - 0x0C)
  else if n = 0x10 then s.rxdataWord
  else if n = 0x11 then packWord [(0, s.ring.readOff)]
  else if n = 0x12 then s.mapaddrWord
  else if n = 0x13 then s.map.addressed.word
  else if n = 0x14 then packWord [(0, s.map.shadow.len.val)]
  else if n = 0x15 then s.mapstatWord
  else if n = 0x16 then packWord [(0, s.chsel.val)]
  else if n = 0x17 then (s.chan s.chsel).sticky.word
  else if 0x18 ≤ n ∧ n ≤ 0x1F then (s.chan s.chsel).cfg.word (chanOf n)
  else if 0x28 ≤ n ∧ n ≤ 0x2F then (s.chan (chanOf n)).txstatWord s.ev.page
  else if n = 0x30 then s.causeWord
  else if 0x31 ≤ n ∧ n ≤ 0x33 then s.pendWord (n - 0x31)
  else if 0x34 ≤ n ∧ n ≤ 0x36 then s.enableWord (n - 0x34)
  else if n = 0x37 then (s.chan s.chsel).chstat0Word
  else if n = 0x38 then (s.chan s.chsel).chstat1Word s.ev.page
  else 0

/-- What a read at a word offset returns: the register as it stands (R175), 0 while RESETn is low (R172). The rows
MAPDATA_READ, RXDATA_READ and CAUSE_READ are the reads with a side effect; every other read is this view alone, brought to
D15-D0 by `busRead` (log entry 8). -/
def readRegister (s : State) (off : BitVec 6) : Word := if s.resetn then s.registerValue off else 0

/-! ## CMDSTAT -/

/-- A write to CMDSTAT clears each of the two flags whose bit is 1 (R178). -/
def writeCmdstat (w : Word) (s : State) : State :=
  { s with cfgReject := s.cfgReject && !wbit w 2, mapBusy := s.mapBusy && !wbit w 3 }

/-- CMDSTAT_WRITE (R178). -/
def execCmdstatWrite (w : Word) (s : State) : Host.Outcome State Fault Refusal := .next (outOfReset (writeCmdstat w) s)

/-! ## The command port -/

/-- The command a code names (R176); any other code is refused with reason UNKNOWN and changes nothing else. -/
def runCommand (code : BitVec 8) (s : State) : State :=
  match ofCommandCode code with
  | .commit => commitCmd s
  | .cancel => cancelCmd s
  | .timingRestart => timingRestartCmd s
  | .release => releaseCmd s
  | .softReset => softResetCmd s
  | .flush c => flushCmd c s
  | .hostPause c => hostPauseCmd c s
  | .hostResume c => hostResumeCmd c s
  | _ => setCmd .refused .unknown code s

/-- UNKNOWN_COMMAND (R176): a COMMAND write of the code carried, so a code that names a command is that command (log
entry 22). -/
def execUnknownCommand (code : BitVec 8) (s : State) : Host.Outcome State Fault Refusal :=
  .next (outOfReset (runCommand code) s)

/-! ## Writes at every word offset -/

/-- A host write of `w` at word offset `off` (R174, section 10.6): the block that owns the register acts on it; a write to a
read-only register or to an offset without a register is ignored (R175). -/
def hostWrite (off : BitVec 6) (w : Word) (s : State) : State :=
  let n := off.toNat
  if n = 0x01 then runCommand (w.setWidth 8) s
  else if n = 0x02 then writeCmdstat w s
  else if n = 0x03 then writeIntctl w s
  else if n = 0x04 then writeTimcfg w s
  else if n = 0x05 then writeRefdiv w s
  else if n = 0x08 then writePoolcfg w s
  else if n = 0x0A then writeRingcfg w s
  else if n = 0x11 then writeRxoffset w s
  else if n = 0x12 then writeMapaddr w s
  else if n = 0x13 then writeMapdata w s
  else if n = 0x14 then writeMaphdr w s
  else if n = 0x16 then writeChsel w s
  else if n = 0x17 then writeChsticky w s
  else if 0x18 ≤ n ∧ n ≤ 0x1F then writeChcfg (chanOf n) w s
  else if 0x20 ≤ n ∧ n ≤ 0x27 then writeTxdata (chanOf n) w s
  else if 0x34 ≤ n ∧ n ≤ 0x36 then writeEnable (n - 0x34) w s
  else s

/-- REGISTER_WRITE (R174). -/
def execRegisterWrite (off : BitVec 6) (w : Word) (s : State) : Host.Outcome State Fault Refusal :=
  .next (outOfReset (hostWrite off w) s)

end Sys2Proof.Machine
end

