-- ==== Sys2Proof/Machine/Dispatch.lean ====
section
/-! DEFINITION. The effect of every command: one arm per row of spec/opcode_table.json. -/

namespace Sys2Proof.Machine

open Sys2Proof

/-- The effect of a command on everything but the queue. -/
def exec (i : Instr) (s : State) : Host.Outcome State Fault Refusal :=
  match i with
  | .resetAssert => Sys2Proof.Machine.execResetAssert s
  | .resetRelease => Sys2Proof.Machine.execResetRelease s
  | .softReset => Sys2Proof.Machine.execSoftReset s
  | .commit => Sys2Proof.Machine.execCommit s
  | .cancel => Sys2Proof.Machine.execCancel s
  | .timingRestart => Sys2Proof.Machine.execTimingRestart s
  | .release => Sys2Proof.Machine.execRelease s
  | .flush c => Sys2Proof.Machine.execFlush c s
  | .hostPause c => Sys2Proof.Machine.execHostPause c s
  | .hostResume c => Sys2Proof.Machine.execHostResume c s
  | .unknownCommand code => Sys2Proof.Machine.execUnknownCommand code s
  | .timingEnable w => Sys2Proof.Machine.execTimingEnable w s
  | .timingDisable w => Sys2Proof.Machine.execTimingDisable w s
  | .rxEnableSet w => Sys2Proof.Machine.execRxEnableSet w s
  | .rxEnableClear w => Sys2Proof.Machine.execRxEnableClear w s
  | .txEnableSet w => Sys2Proof.Machine.execTxEnableSet w s
  | .txEnableClear w => Sys2Proof.Machine.execTxEnableClear w s
  | .fcEnableSet w => Sys2Proof.Machine.execFcEnableSet w s
  | .fcEnableClear w => Sys2Proof.Machine.execFcEnableClear w s
  | .chcfgWrite n w => Sys2Proof.Machine.execChcfgWrite n w s
  | .txdata c w => Sys2Proof.Machine.execTxdata c w s
  | .mapdataWrite w => Sys2Proof.Machine.execMapdataWrite w s
  | .mapdataRead => Sys2Proof.Machine.execMapdataRead s
  | .maphdrWrite w => Sys2Proof.Machine.execMaphdrWrite w s
  | .rxdataRead => Sys2Proof.Machine.execRxdataRead s
  | .rxoffsetWrite w => Sys2Proof.Machine.execRxoffsetWrite w s
  | .causeRead => Sys2Proof.Machine.execCauseRead s
  | .chstickyWrite w => Sys2Proof.Machine.execChstickyWrite w s
  | .cmdstatWrite w => Sys2Proof.Machine.execCmdstatWrite w s
  | .poolcfgWrite w => Sys2Proof.Machine.execPoolcfgWrite w s
  | .ringcfgWrite w => Sys2Proof.Machine.execRingcfgWrite w s
  | .registerWrite off w => Sys2Proof.Machine.execRegisterWrite off w s
  | .syncPulse => Sys2Proof.Machine.execSyncPulse s
  | .frameBoundary pulse => Sys2Proof.Machine.execFrameBoundary pulse s
  | .localFramePeriodEnd sense => Sys2Proof.Machine.execLocalFramePeriodEnd sense s
  | .txSlot => Sys2Proof.Machine.execTxSlot s
  | .echoResult => Sys2Proof.Machine.execEchoResult s
  | .rxWord => Sys2Proof.Machine.execRxWord s
  | .listenWindow => Sys2Proof.Machine.execListenWindow s
  | .holdoffLimit => Sys2Proof.Machine.execHoldoffLimit s
  | .flywheelExpiry => Sys2Proof.Machine.execFlywheelExpiry s
  | .clockLost => Sys2Proof.Machine.execClockLost s
  | .debounceComplete => Sys2Proof.Machine.execDebounceComplete s
  | .gapExpiry c => Sys2Proof.Machine.execGapExpiry c s
  | .refresh c => Sys2Proof.Machine.execRefresh c s
  | .holdExpired c => Sys2Proof.Machine.execHoldExpired c s
  | .peerAbsent c => Sys2Proof.Machine.execPeerAbsent c s
  | .readyTimeout => Sys2Proof.Machine.execReadyTimeout s
  | .switch => Sys2Proof.Machine.execSwitch s
  | .hwclkRisingEdge sync data => Sys2Proof.Machine.execHwclkRisingEdge sync data s

end Sys2Proof.Machine
end

