-- ==== Sys2Proof/Machine/HostBus.lean ====
section
/-! DEFINITION. The lines of the host bus and HWSENSE (spec 10, R174; spec 02, R38): which strobe edges are accesses, what the
part drives on D15-D0, and a change of one input line. -/

namespace Sys2Proof.Machine

open Sys2Proof

/-- The marks after a line of the bus has moved: strobes low at once clash until both are high, and a read lasts until RDn rises
(R174). R174 does not say when the ignoring of strobes that were low at once ends: that it lasts until both are high, and that
CSn going high ends it too, so that after CSn returns low the rise of a WRn still low is a write, is the model's choice; so is that
CSn going high ends a read in progress (log entry 24). -/
def HostBus.settled (b : HostBus) : HostBus :=
  { b with
    clash := !b.csn && ((!b.rdn && !b.wrn) || (b.clash && !(b.rdn && b.wrn)))
    reading := b.reading && !b.csn && !b.rdn }

/-- A falling edge of RDn is a read while CSn is low and WRn high (R174). -/
def HostBus.readTaken (b : HostBus) (high : Bool) : Bool := !b.csn && b.rdn && !high && b.wrn

/-- A rising edge of WRn is a write while CSn is low, unless RDn and WRn were low at once (R174). -/
def HostBus.writeTaken (b : HostBus) (high : Bool) : Bool := !b.csn && !b.wrn && high && b.rdn && !b.clash

/-- What the part drives on D15-D0: the value formed at the falling edge of RDn, until RDn rises; nothing while CSn is high or
both strobes are low (R174). -/
def State.dataPins (s : State) : Option Word :=
  let b := s.bus
  if !b.csn && !b.rdn && b.wrn && b.reading && !b.clash then some s.readData else none

/-- A read at a word offset: the value is formed, and the three registers that have one take their side effect (R174, R175).
While RESETn is low it returns 0 and has no side effect (R172). -/
def busRead (off : BitVec 6) (s : State) : Host.Outcome State Fault Refusal :=
  if !s.resetn then .next (s.driveData 0)
  else if off = 0x10 then execRxdataRead s
  else if off = 0x13 then .next (readMapdata s)
  else if off = 0x30 then .next (readCause s)
  else .next (s.driveData (readRegister s off))

/-- RDn moves. -/
def takeRdn (high : Bool) (s : State) : Host.Outcome State Fault Refusal :=
  if s.bus.readTaken high then busRead s.bus.addr { s with bus := { s.bus with rdn := false, reading := true, clash := false } }
  else .next { s with bus := { s.bus with rdn := high }.settled }

/-- WRn moves. -/
def takeWrn (high : Bool) (s : State) : Host.Outcome State Fault Refusal :=
  let s1 : State := { s with bus := { s.bus with wrn := high }.settled }
  if s.bus.writeTaken high then .next (outOfReset (hostWrite s.bus.addr s.bus.data) s1) else .next s1

/-- A change of one input line, taken whole (R2, R38, R174; log entry 24). A fall of HWCLK begins a bit period, from which HWDATA
is released where an abandoned slot left it pulled (R2, R15). -/
def takePin (p : PinChange) (s : State) : Host.Outcome State Fault Refusal :=
  match p with
  | .csn high => .next { s with bus := { s.bus with csn := high }.settled }
  | .rdn high => takeRdn high s
  | .wrn high => takeWrn high s
  | .address a => .next { s with bus := { s.bus with addr := a } }
  | .data w => .next { s with bus := { s.bus with data := w } }
  | .sense high => .next { s with hwsense := high }
  | .hwclkFalls => .next { s with hwclkLow := true, dataHeld := .released }

end Sys2Proof.Machine
end

