-- ==== Sys2Proof/Machine/Step.lean ====
section
/-! DEFINITION. One step of the part: the command at the front of the queue, or, when no command waits, a change of an input
line or a REFCLK period of the local frame generator. -/

namespace Sys2Proof.Machine

open Sys2Proof

/-- The state with a command put at the front of its queue. -/
def State.withFront (s : State) (c : Instr) : State := { s with pending := c :: s.pending }

/-- The state with the command that a table word spells at the front of its queue; the table spells none (log entry 23). -/
def State.withFetchWord (s : State) (nbits w : Nat) : State :=
  match decodeTableWord nbits w with
  | some c => s.withFront c
  | none => s

/-- One step: the command at the front of the queue acts on the state with the queue's rest. With no command waiting, the front
change of an input line is taken; with none waiting either, one REFCLK period of the local frame generator passes, and nothing
happens while RESETn is low (R17, R172, R174; log entry 1). -/
def step (s : State) : Host.Outcome State Fault Refusal :=
  match s.pending with
  | c :: rest => exec c { s with pending := rest }
  | [] =>
    match s.inputs with
    | p :: rest => takePin p { s with inputs := rest }
    | [] => .next (outOfReset refclkTick s)

end Sys2Proof.Machine
end

