-- ==== Sys2Proof/Safety.lean ====
section
/-! DEFINITION. What a sound state of the part is: the laws the manual states of the whole part, each a predicate that every
step is to keep, and a step that does not stop. -/

namespace Sys2Proof.Machine

open Sys2Proof

/-! ## Ranges of the configuration -/

/-- The ranges of a channel's fields (R59, R62), LW below HW, and HW at or below quota (R63). -/
def ChanCfg.inRange (g : ChanCfg) : Prop :=
  (1 ≤ g.quota ∧ g.quota ≤ 128) ∧ (1 ≤ g.hw ∧ g.hw ≤ 128) ∧ g.lw ≤ 127 ∧ (1 ≤ g.maxLen ∧ g.maxLen ≤ 2048) ∧
  g.gapLimit ≤ 255 ∧ (1 ≤ g.p ∧ g.p ≤ 15) ∧ (2 ≤ g.h ∧ g.h ≤ 63) ∧ g.restartLimit ≤ 7 ∧
  (1 ≤ g.collLimit ∧ g.collLimit ≤ 15) ∧ g.spaceLevel ≤ 512 ∧ g.lw < g.hw ∧ g.hw ≤ g.quota

/-- Every configuration field is in its range, LW is below HW and HW at or below quota (R16, R59, R63, R105, R136). -/
def State.configLaw (s : State) : Prop :=
  (∀ c, (s.chan c).cfg.inRange) ∧
  (1 ≤ s.tim.limit ∧ s.tim.limit ≤ 15) ∧ (2 ≤ s.tim.refdiv ∧ s.tim.refdiv ≤ 1023) ∧
  (1 ≤ s.pool.hyst ∧ s.pool.hyst ≤ 32) ∧ s.pool.reserve + s.pool.hyst ≤ 128 ∧
  (1 ≤ s.ring.threshold ∧ s.ring.threshold ≤ 32) ∧ s.ring.timeout ≤ 255 ∧ s.ring.timer ≤ 255

/-! ## The map and the timing state -/

/-- A bank without an entry in use at or above its frame length (R49, first law). -/
def Bank.withinFrame (b : Bank) : Prop := ∀ k, b.slots ≤ k → (b.entry k).mode = .unused

/-- Every channel with rx_enable and fc_enable set that has an RX slot in the bank has a TX slot there (R49, second law). -/
def State.returnPaths (s : State) (b : Bank) : Prop :=
  ∀ c, (s.chan c).cfg.rx = true → (s.chan c).cfg.fc = true → b.gives .rx c = true → b.gives .tx c = true

/-- A bank whose UNUSED entries hold channel 0 (R41). -/
def Bank.unusedZero (b : Bank) : Prop := ∀ k : SlotNo, (b.entries.get k).mode = .unused → (b.entries.get k).chan = 0

/-- The laws of the banks (R41, R49, R50): they hold for ACTIVE, and for SHADOW while a commit is pending; UNUSED entries hold channel 0; a commit is pending only
in LOCKED, DRIVING or FLYWHEEL, with equal frame lengths; the timing state is OFF exactly while enable is 0. -/
def State.mapLaw (s : State) : Prop :=
  (s.tim.enable = false ↔ s.tim.st = .off) ∧
  s.map.active.withinFrame ∧ s.returnPaths s.map.active ∧ s.map.active.unusedZero ∧ s.map.shadow.unusedZero ∧
  (s.map.commit = .pending →
    (s.tim.st = .locked ∨ s.tim.st = .driving ∨ s.tim.st = .flywheel) ∧ s.map.shadow.len = s.map.active.len ∧
    s.map.shadow.withinFrame ∧ s.returnPaths s.map.shadow)

/-- A slot is worked only in LOCKED or DRIVING, and its number is below the frame length (R8). -/
def State.slotLaw (s : State) : Prop :=
  (s.slot ≠ .idle → s.tim.st = .locked ∨ s.tim.st = .driving) ∧
  (∀ x, s.slot = .inSlot x → x.number < s.map.active.slots ∧ x.bits.length ≤ 11)

/-! ## Flow control -/

/-- The local pause of every channel is what its enables and causes make it; an owed flow word matches it (R145, R146); the
pool-low condition is asserted at the reserve and released above it by the hysteresis (R106), the POOL causes follow it (R143),
and the QUOTA cause is asserted at HW and clear at LW (R142). -/
def State.pauseLaw (s : State) : Prop :=
  (s.pool.free.length ≤ s.pool.reserve → s.pool.low = true) ∧
  (s.pool.reserve + s.pool.hyst ≤ s.pool.free.length → s.pool.low = false) ∧
  ∀ c, let x := s.chan c
    x.fl.asserted = (x.cfg.rx && x.cfg.fc && (x.fl.quota || x.fl.pool || x.fl.host)) ∧
    (x.fl.pauseOwed = true → x.fl.asserted = true) ∧ (x.fl.resumeOwed = true → x.fl.asserted = false) ∧
    x.fl.pool = s.pool.low ∧
    (x.cfg.hw ≤ x.held → x.fl.quota = true) ∧ (x.held ≤ x.cfg.lw → x.fl.quota = false)

/-! ## Transmit lists -/

/-- A transmit list within its bounds (R77): at most 512 bytes and 8 records, each of 1 byte or more, none open but the
newest, no closed record poisoned; the poisoned flag is held alone only without an open record (R79). -/
def TxUnit.listLaw (u : TxUnit) : Prop :=
  (u.records.map fun x => x.bytes.length).sum ≤ 512 ∧ u.records.length ≤ 8 ∧
  (∀ x ∈ u.records, x.bytes ≠ []) ∧ (∀ x ∈ u.records.dropLast, x.closed = true) ∧
  (∀ x ∈ u.records, x.closed = true → x.poisoned = false) ∧ (u.lone = true → ∀ x ∈ u.records, x.closed = true)

/-- Every transmit list is within its bounds (R77). -/
def State.txLaw (s : State) : Prop := ∀ c, (s.chan c).tx.listLaw

/-! ## The ring and the pool -/

/-- A receive unit that holds a reservation: in OPEN, TRUNCATING or OVERRUN (R128, R139). -/
def RxUnit.reserves (u : RxUnit) : Bool :=
  decide (u.st = .opened) || decide (u.st = .truncating) || decide (u.st = .overrun)

/-- The reservation count is the number of channels in OPEN, TRUNCATING or OVERRUN (R139), and filled entries and reservations
together never exceed 32 (R128). -/
def State.ringLaw (s : State) : Prop :=
  s.ring.reserved = (channels.countP fun c => (s.chan c).rx.reserves) ∧
  s.ring.entries.length + s.ring.reserved ≤ 32

/-- The bytes of the pool are in canonical form. -/
def State.memLaw (s : State) : Prop := Memory.wf s.pool.mem = true

/-- The blocks of the open chain of channel c. -/
def State.openChain (s : State) (c : Chan) : List BlockNo := s.pool.chain (s.chan c).rx.first

/-- Every block, as the free list, the open chains and the chains of the ring's descriptors hold them. -/
def State.allBlocks (s : State) : List BlockNo :=
  s.pool.free ++ channels.flatMap s.openChain ++ s.ring.entries.flatMap fun d => s.pool.chain d.first

/-- How many blocks the descriptors of channel c hold in the ring. -/
def State.ringHeld (s : State) (c : Chan) : Nat :=
  ((s.ring.entries.filter fun d => decide (d.chan = c)).map fun d => (s.pool.chain d.first).length).sum

/-- The open chain of a channel fits its receive unit (R108, R111): without a block nothing is stored; with one, the current
block is the last of the chain, every block before it is full, and only OPEN and TRUNCATING hold a chain. -/
def State.openFits (s : State) (c : Chan) : Prop :=
  let u := (s.chan c).rx
  (u.first = none ↔ u.cur = none) ∧ (s.openChain c).getLast? = u.cur ∧
  (u.cur = none → u.len = 0) ∧
  (u.cur ≠ none → u.fill ≤ 32 ∧ u.len + 32 = 32 * (s.openChain c).length + u.fill ∧
    (u.st = .opened ∨ u.st = .truncating))

/-- The law of the blocks (R100, R101): every block is on the free list or in exactly one chain, held(c) counts the blocks of
channel c, a free block has no link, every chain fits its message, and every descriptor's chain holds its bytes (R130). -/
def State.poolLaw (s : State) : Prop :=
  s.allBlocks.Nodup ∧ s.allBlocks.length = 128 ∧
  (∀ c, (s.chan c).held = (s.openChain c).length + s.ringHeld c) ∧
  (∀ b ∈ s.pool.free, s.pool.links.get b = none) ∧
  (∀ c, s.openFits c) ∧
  (∀ d ∈ s.ring.entries, d.length ≤ 32 * (s.pool.chain d.first).length)

/-- The read offset lies within the head message, and is 0 without one (R132, R133). -/
def State.offsetLaw (s : State) : Prop :=
  match s.ring.entries with
  | [] => s.ring.readOff = 0
  | d :: _ => s.ring.readOff ≤ d.length

/-! ## What happenings leave, for statements about them -/

/-- Exactly the sources of `xs` were raised between s and t: their flags are set and every other flag, every enable, every
detail, INTEN and the view page are as they were (R160). -/
def raisedOnly (xs : List Source) (s t : State) : Prop :=
  t.ev = { s.ev with latched := t.ev.latched } ∧
  ∀ x ∈ allSources, t.ev.latched.get x.place = (s.ev.latched.get x.place || decide (x ∈ xs))

/-- No source but those of `xs` was raised between s and t, and no enable, detail, INTEN or view page changed (R160). -/
def raisedWithin (xs : List Source) (s t : State) : Prop :=
  t.ev = { s.ev with latched := t.ev.latched } ∧
  ∀ x ∈ allSources, x ∉ xs → t.ev.latched.get x.place = s.ev.latched.get x.place

/-- The sources that a switch may raise (R49, R74). -/
def switchSources : List Source := .commitDone :: channels.map .peerChange

/-- TX_DROPPED(c) was raised with its detail between s and t, and nothing else of the event unit changed (R98, R160, R165). -/
def droppedOnly (c : Chan) (d : DropReason) (s t : State) : Prop :=
  t.ev = { s.ev with latched := t.ev.latched, dropDetail := t.ev.dropDetail } ∧
  (∀ x ∈ allSources, t.ev.latched.get x.place = (s.ev.latched.get x.place || decide (x = .txDropped c))) ∧
  ∀ k, t.ev.dropDetail.get k = if k = c then d else s.ev.dropDetail.get k

/-- No channel but c changed. -/
def onlyChannel (c : Chan) (s t : State) : Prop := ∀ d, d ≠ c → t.chan d = s.chan d

/-- A receive unit whose message has ended as u (R108, R116, R118, R119): IDLE with nothing kept but the sequence counter, which has
risen by 1 if the message had a descriptor. -/
def endedUnit (u : RxUnit) : RxUnit :=
  { st := .idle, first := none, cur := none, fill := 0, len := 0, damaged := false, gap := 0, seen := false
    seq := u.seq + (if u.reserves then 1 else 0) }

/-- What a traffic abort leaves of channel x as channel y, in every order of what falls together with it (R91, R121, R150):
a message being received has ended and a receive unit in IDLE is as it was, no word is in flight, a head that was SENDING is READY at offset 0 with ABORT owed, an asserted
local pause owes PAUSE, a RESUME in flight is owed again, and the remote pause is GO. -/
def abortedChannel (x y : Channel) : Prop :=
  let orphan := match x.tx.flight with
    | some { kind := .data _, orphan := b } => b
    | some { kind := .last _, orphan := b } => b
    | _ => false
  (x.rx.st ≠ .idle → y.rx = endedUnit x.rx) ∧ (x.rx.st = .idle → { y.rx with seen := x.rx.seen } = x.rx) ∧
  y.tx.flight = none ∧ y.tx.sending = false ∧ y.tx.records = x.tx.records ∧ y.tx.r = x.tx.r ∧ y.tx.coll = x.tx.coll ∧
  y.tx.dropAfter = x.tx.dropAfter ∧
  (x.tx.sending = true → y.tx.offset = 0 ∧ y.tx.abortOwed = true) ∧
  (x.tx.sending = false → y.tx.offset = x.tx.offset ∧ y.tx.abortOwed = (x.tx.abortOwed || orphan)) ∧
  y.fl.flight = none ∧ y.fl.held = false ∧ y.fl.holdCnt = 0 ∧ y.fl.asserted = x.fl.asserted ∧
  y.fl.pauseOwed = (x.fl.pauseOwed || x.fl.asserted) ∧
  y.fl.resumeOwed = (x.fl.resumeOwed || (!x.fl.asserted && decide (x.fl.flight = some .resume))) ∧
  y.fl.refresh = (if x.fl.asserted then 0 else x.fl.refresh) ∧
  y.fl.quota = x.fl.quota ∧ y.fl.pool = x.fl.pool ∧ y.fl.host = x.fl.host ∧
  y.cfg = x.cfg ∧ y.sticky = x.sticky ∧ y.held = x.held

/-- The slot in progress has had its eleven bits, and its result is still to be delivered. -/
def State.slotOver (s : State) : Bool :=
  match s.slot with
  | .inSlot x => decide (x.bits.length = 11) && (decide (x.work = .rx) || (decide (x.work = .tx) && x.word.isSome))
  | _ => false

/-- A slot that is over is not abandoned by command i: its result is delivered first, and i does what it does after
ECHO_RESULT or RX_WORD (R15). -/
def resultFirst (i : Instr) (s : State) : Prop :=
  s.slotOver = true → ∃ u, (exec .echoResult s = .next u ∨ exec .rxWord s = .next u) ∧ u.slotOver = false ∧ exec i s = exec i u

/-- The flow unit of a channel after the command that leaves y of x, where x meets the pause law: its causes follow held(c) and
the pool-low condition, the local pause follows its causes, and a transition of it owes the flow word of the new state, cancels
the other and sets the refresh counter to 0, where without one these stand (R142, R143, R145, R146). -/
def flowFollows (x y : Channel) (low : Bool) : Prop :=
  y.fl.pool = low ∧
  (y.cfg.hw ≤ y.held → y.fl.quota = true) ∧ (y.held ≤ y.cfg.lw → y.fl.quota = false) ∧
  (y.cfg.lw < y.held → y.held < y.cfg.hw → y.fl.quota = x.fl.quota) ∧
  y.fl.asserted = (y.cfg.rx && y.cfg.fc && (y.fl.quota || y.fl.pool || y.fl.host)) ∧
  (y.fl.asserted = x.fl.asserted →
    y.fl.pauseOwed = x.fl.pauseOwed ∧ y.fl.resumeOwed = x.fl.resumeOwed ∧ y.fl.refresh = x.fl.refresh) ∧
  (y.fl.asserted ≠ x.fl.asserted →
    y.fl.pauseOwed = y.fl.asserted ∧ y.fl.resumeOwed = !y.fl.asserted ∧ y.fl.refresh = 0) ∧
  y.fl.flight = x.fl.flight

/-- From a state that meets the laws of configuration and pause, the flow unit of every channel follows, and the host's cause and
the remote pause stay but for those of the channels of `but`. -/
def flowsFollow (but : List Chan) (s t : State) : Prop :=
  s.configLaw → s.pauseLaw → ∀ c, flowFollows (s.chan c) (t.chan c) t.pool.low ∧
    (c ∉ but → (t.chan c).fl.host = (s.chan c).fl.host ∧ (t.chan c).fl.held = (s.chan c).fl.held ∧
      (t.chan c).fl.holdCnt = (s.chan c).fl.holdCnt)

/-- The map unit after a switch (R49): SHADOW copied into ACTIVE, IDLE, DONE with reason NONE and detail 0. -/
def afterSwitch (m : MapUnit) : MapUnit :=
  { m with active := m.shadow, commit := .idle, result := .done, reason := .none, detail := 0 }

/-- The descriptor of the message in progress of channel c in state s when it ends with a closing cause (R115, R116,
R130). -/
def endedAs (c : Chan) (cause : MsgStatus) (s : State) : Descriptor :=
  let u := (s.chan c).rx
  { chan := c
    seq := u.seq
    damaged := u.damaged
    stamp := s.tim.frameCnt
    status := if u.st = .opened then cause else if u.st = .truncating then .truncated else .overrun
    length := if u.st = .overrun then 0 else u.len
    first := if u.st = .overrun then none else u.first }

/-- The ready timer over messages that end: 0 where one has put its descriptor into the ring, else as it was (R129, R137). -/
def timerAfter (n : Nat) (r : Ring) : Nat := if n = 0 then r.timer else 0

/-- What a traffic abort leaves of the ring: the entries it had, behind them one descriptor for every channel that held a
reservation, in an open order and in place of the reservation, and the ready timer at 0 where there is one. Where a pending commit switches in the same step, a
message may end as UNMAPPED instead of SYNC (R54, R121, R122, R129, R137). -/
def ringEnds (switches : Bool) (s t : State) : Prop :=
  let n := channels.countP fun c => (s.chan c).rx.reserves
  s.ring.entries <+: t.ring.entries ∧ t.ring.entries.length = s.ring.entries.length + n ∧
  { t.ring with entries := s.ring.entries } =
    { s.ring with reserved := s.ring.reserved - n, timer := timerAfter n s.ring } ∧
  ∀ c, (s.chan c).rx.reserves = true → endedAs c .sync s ∈ t.ring.entries ∨
    (switches = true ∧ endedAs c .unmapped s ∈ t.ring.entries)

/-- The events of a step that makes a switch to the SHADOW of s exactly when `switches`, and that judges no frame: COMMIT_DONE
is raised exactly then (R49), and PEER_CHANGE(c) exactly then for a PRESENT channel that SHADOW gives no RX slot (R74). -/
def switchEvents (switches : Bool) (s t : State) : Prop :=
  t.isPending .commitDone = (s.isPending .commitDone || switches) ∧
  ∀ c, t.isPending (.peerChange c) =
    (s.isPending (.peerChange c) || (switches && !s.map.shadow.gives .rx c && (s.chan c).peer.present))

/-- Peer presence over such a step: a channel that the switch leaves without an RX slot is ABSENT with its silence counter at 0,
and every other is as it was (R73, R74). -/
def switchPeers (switches : Bool) (s t : State) : Prop :=
  ∀ c, (t.chan c).peer = if switches && !s.map.shadow.gives .rx c
    then { (s.chan c).peer with present := false, silence := 0 } else (s.chan c).peer

/-- What a switch leaves, beside the command-status record: SHADOW in ACTIVE, COMMIT_DONE, and the switch notice at every
channel; a descriptor in the ring for every reservation of a channel that is left without an RX slot (R49, R53, R74, R92, R122,
R129, R137). -/
def switchMade (s t : State) : Prop :=
  t.map = afterSwitch s.map ∧ switchEvents true s t ∧ raisedWithin switchSources s t ∧ switchPeers true s t ∧
  (let n := channels.countP fun c => !s.map.shadow.gives .rx c && (s.chan c).rx.reserves
   s.ring.entries <+: t.ring.entries ∧ t.ring.entries.length = s.ring.entries.length + n ∧
   { t.ring with entries := s.ring.entries } =
     { s.ring with reserved := s.ring.reserved - n, timer := timerAfter n s.ring }) ∧
  { t with map := s.map, ev := s.ev, chans := s.chans, ring := s.ring, arb := s.arb, cmd := s.cmd } = s ∧
  ∀ c, let x := s.chan c; let y := t.chan c
    y.cfg = x.cfg ∧ y.sticky = x.sticky ∧ y.fl = x.fl ∧ y.held = x.held ∧
    (s.map.shadow.gives .tx c = true → y.tx = x.tx) ∧
    (s.map.shadow.gives .tx c = false →
      y.tx = if x.tx.sending && decide (0 < x.tx.offset)
        then { x.tx with abortOwed := true, sending := false, offset := 0 } else x.tx) ∧
    (s.map.shadow.gives .rx c = true → y.rx = x.rx) ∧
    (s.map.shadow.gives .rx c = false → y.rx = (if x.rx.st = .idle then x.rx else endedUnit x.rx) ∧
      (x.rx.reserves = true → endedAs c .unmapped s ∈ t.ring.entries))

/-- What every fall of the timing state leaves beside the timing unit, the channels' three units and the event flags: no slot is
worked, a pending commit has switched (R50), peer presence follows that switch alone, messages have ended into the ring,
the data-seen flag of an idle receive unit is as it was (R119), and blocks are neither granted nor freed. A pull left on HWDATA is said beside it (R15). -/
def fallen (s t : State) : Prop :=
  t.slot = .idle ∧ t.map = (if s.map.commit = .pending then afterSwitch s.map else s.map) ∧
  ringEnds (decide (s.map.commit = .pending)) s t ∧ switchPeers (decide (s.map.commit = .pending)) s t ∧
  (∀ c, (s.chan c).rx.st = .idle → (t.chan c).rx.seen = (s.chan c).rx.seen) ∧
  { t with tim := s.tim, slot := s.slot, map := s.map, chans := s.chans, ring := s.ring, ev := s.ev, cmd := s.cmd
           arb := s.arb, dataHeld := s.dataHeld } = s

/-! ## A safe run -/

/-- The laws that keep every step from stopping. -/
def State.sound (s : State) : Prop := s.poolLaw ∧ s.offsetLaw

end Sys2Proof.Machine
end

