-- ==== Sys2Proof/Certificates/Slice0/Obligations.lean ====
section
/-! DEFINITION. The statements for the provers. R<n> is a numbered rule of spec/. A statement about a happening whose order is
open holds for every order. -/

open Sys2Proof Sys2Proof.Machine

/-! ## The queue and the host's writes -/

/-- With a command at the front of the queue, a step is the command's effect on the state with the queue's rest. -/
def Obligations.StepRunsFrontCommand : Prop :=
  ∀ (c : Instr) (rest : List Instr) (s : State), step { s with pending := c :: rest } = exec c { s with pending := rest }

/-- With no command and no change of an input line waiting, a step is one REFCLK period of the local frame generator (R17;
that a step is one is the model's choice, log entry 1): the local bit period and the local frame period in progress keep
their lengths, a pull left on HWDATA by a slot abandoned in DRIVING ends where the next local bit period begins (R15), and
at the end of the latter the part takes it with the HWSENSE level held. While RESETn is low nothing happens. -/
def Obligations.EmptyQueueStepsTheGenerator : Prop :=
  ∀ (s : State), s.pending = [] → s.inputs = [] →
    (s.resetn = false → step s = .next s) ∧
    (s.resetn = true → s.gen.ref + 1 < s.gen.div →
      step s = .next { s with gen := { s.gen with ref := s.gen.ref + 1 } }) ∧
    (s.resetn = true → s.gen.div ≤ s.gen.ref + 1 → s.gen.bit + 1 < 11 * s.gen.len →
      step s = .next { s with
        gen := { s.gen with div := s.tim.refdiv, ref := 0, bit := s.gen.bit + 1 }
        dataHeld := if s.dataHeld = .toLocalBit then .released else s.dataHeld }) ∧
    (s.resetn = true → s.gen.div ≤ s.gen.ref + 1 → 11 * s.gen.len ≤ s.gen.bit + 1 →
      step s = exec (.localFramePeriodEnd s.hwsense) s)

/-- Changes of the input lines. A rising edge of WRn with CSn low is the write of the bus levels, a falling edge of RDn with
CSn low the read of the register at its address: the value is the register's as it stood, the three registers with a side
effect take it, and the value stands on D15-D0 until RDn or CSn rises. With CSn high, and with both strobes low at once, no
access is taken and D15-D0 are not driven. While RESETn is low a write does nothing and a read returns 0. HWSENSE shows in
TIMSTAT as it stands (R38, R172, R174). The model's choice, not R174's: that steps take the changes, with no command waiting
(log entry 1); that the lines change one at a time, that strobes once low at once are ignored until both are high or CSn is,
which is what b.clash says, set where both are low and cleared where both are high or CSn is, and that a read cut off by CSn
is not taken up again (log entry 24); and that a falling edge of HWCLK only begins a bit period, from which HWDATA is
released where an abandoned slot left it pulled (R2, R15; log entry 5). -/
def Obligations.BusStrobesAreAccesses : Prop :=
  ∀ (rest : List PinChange) (s : State), s.pending = [] →
    let at' := fun p : PinChange => step { s with inputs := p :: rest }
    let u := { s with inputs := rest }
    let b := s.bus
    let moved := fun p : PinChange => match p with
      | .csn high => { b with csn := high }
      | .rdn high => { b with rdn := high }
      | .wrn high => { b with wrn := high }
      | .address a => { b with addr := a }
      | .data w => { b with data := w }
      | .sense _ => b
      | .hwclkFalls => b
    let noAccess := fun p : PinChange =>
      let m := moved p
      at' p = .next { u with bus := { m with
        clash := !m.csn && (!m.rdn && !m.wrn || b.clash && !(m.rdn && m.wrn))
        reading := b.reading && !m.csn && !m.rdn } }
    (s.resetn = true → b.csn = false → b.wrn = false → b.rdn = true → b.clash = false →
      at' (.wrn true) = exec (.registerWrite b.addr b.data) { u with bus := { b with wrn := true, reading := false } }) ∧
    (s.resetn = true → b.csn = false → b.rdn = true → b.wrn = true →
      let v := { u with bus := { b with rdn := false, reading := true, clash := false } }
      (b.addr = 0x10 → at' (.rdn false) = exec .rxdataRead v) ∧ (b.addr = 0x13 → at' (.rdn false) = exec .mapdataRead v) ∧
      (b.addr = 0x30 → at' (.rdn false) = exec .causeRead v) ∧
      (b.addr ≠ 0x10 → b.addr ≠ 0x13 → b.addr ≠ 0x30 →
        at' (.rdn false) = .next { v with readData := readRegister s b.addr }) ∧
      (∀ t, at' (.rdn false) = .next t → t.dataPins = some (readRegister s b.addr))) ∧
    (∀ p ∈ [PinChange.csn true, .csn false, .rdn true, .wrn false], noAccess p) ∧
    (b.csn = true ∨ b.rdn = false ∨ b.clash = true ∨ b.wrn = true → noAccess (.wrn true)) ∧
    (b.csn = true ∨ b.rdn = false ∨ b.wrn = false → noAccess (.rdn false)) ∧
    (∀ (high : Bool) (t : State), b.csn = false → at' (.wrn high) = .next t →
      t.bus.clash = (!b.rdn && !high || b.clash && !(b.rdn && high))) ∧
    (∀ (high : Bool) (t : State), b.csn = false → at' (.rdn high) = .next t →
      high = true ∨ b.rdn = false ∨ b.wrn = false ∨ b.clash = false →
      t.bus.clash = (!high && !b.wrn || b.clash && !(high && b.wrn))) ∧
    (b.csn = false → b.rdn = false → ∀ t, at' (.wrn false) = .next t → t.bus.clash = true) ∧
    (b.csn = false → b.wrn = false → ∀ t, at' (.rdn false) = .next t → t.bus.clash = true) ∧
    (b.csn = false → b.clash = true → b.rdn = false →
      ∀ t, at' (.wrn true) = .next t → t.bus.clash = true ∧ t.dataPins = none) ∧
    (b.csn = false → b.clash = true → b.wrn = false → ∀ t, at' (.rdn true) = .next t → t.bus.clash = true) ∧
    (∀ p ∈ [PinChange.csn true, .rdn true, .wrn false], ∀ t, at' p = .next t → t.dataPins = none) ∧
    (b.csn = true ∨ b.rdn = true ∨ b.wrn = false → s.dataPins = none) ∧
    (∀ (a : BitVec 6) (w : Word), at' (.address a) = .next { u with bus := { b with addr := a } } ∧
      at' (.data w) = .next { u with bus := { b with data := w } } ∧
      ∀ p ∈ [PinChange.address a, .data w, .sense true, .sense false, .hwclkFalls], ∀ t, at' p = .next t → t.dataPins = s.dataPins) ∧
    (s.resetn = false → noAccess (.wrn true) ∧
      (b.csn = false → b.rdn = true → b.wrn = true →
        at' (.rdn false) = .next { u with bus := { b with rdn := false, reading := true, clash := false }, readData := 0 } ∧
        ∀ t, at' (.rdn false) = .next t → t.dataPins = some 0)) ∧
    (∀ high : Bool, at' (.sense high) = .next { u with hwsense := high } ∧
      (s.resetn = true → (readRegister { u with hwsense := high } 0x06).getLsbD 6 = high)) ∧
    at' .hwclkFalls = .next { u with hwclkLow := true, dataHeld := .released } ∧
    (b.csn = false → b.clash = true → ∀ t, at' (.csn true) = .next t → t.bus.clash = false)

/-- The row of a host write and the write of a row agree: from the write of a well-formed row the port names that row, and
the row it names for any write is well formed and stands for that write, bits 15-8 of a COMMAND word being ignored (R174,
R176). The rows that name a change of an enable are those of TIMCFG and CHCFG0. -/
def Obligations.HostWriteNamesItsRow : Prop :=
  (∀ (i : Instr) (off : BitVec 6) (w : Word), i.wf = true → i.changesEnable = false → busWrite i = some (off, w) →
    ofBusWrite off w = i) ∧
  (∀ (off : BitVec 6) (w : Word), (ofBusWrite off w).wf = true ∧
    busWrite (ofBusWrite off w) = some (off, if off = 0x01 then w &&& 0x00FF else w))

/-- Every row that is a host write acts as the write of its word at its offset (R174). For terms that are not well formed
this is the model's choice: a row that names a change of an enable acts so for every word (log entry 9), and UNKNOWN_COMMAND
with a code that names a command is that command (log entry 22). -/
def Obligations.HostWriteRowsActAsTheirWrite : Prop :=
  ∀ (i : Instr) (off : BitVec 6) (w : Word) (s : State), busWrite i = some (off, w) →
    exec i s = exec (.registerWrite off w) s

/-- Words on the highway: a word the part builds has an even count of ones, is never SILENT, comes back unchanged through
its eleven bits, and is received as what it was sent as; its tag is in bits 10-9, its payload in bits 8-1, and bit 10 goes
first. Any word is classed by the first of: eleven ones, an odd count of ones, its tag, its control code (R4, R5, R6, R7,
R12). -/
def Obligations.SlotWordsAreReadAsSent : Prop :=
  (∀ (t : Tag) (b : Byte),
    let w := buildWord t b
    (w.extractLsb' 9 2).toNat = (match t with | .idle => 0 | .data => 1 | .last => 2 | .ctrl => 3) ∧ w.extractLsb' 1 8 = b ∧
    (wordBits w).count true % 2 = 0 ∧ w ≠ BitVec.allOnes 11 ∧ wordOfBits (wordBits w) = w ∧ (wordBits w).length = 11 ∧
    classify w = (match t with
      | .idle => RxClass.idle
      | .data => .data b
      | .last => .last b
      | .ctrl => if b = 0x3C then .pause else if b = 0xC3 then .resume else if b = 0x5A then .abort else .unknownCtrl)) ∧
  (∀ w : SlotWord,
    (∀ k : Fin 11, (wordBits w)[k.val]? = some (w.getLsbD (10 - k.val))) ∧
    (classify w = .silent ↔ w = BitVec.allOnes 11) ∧
    (classify w = .corrupt ↔ w ≠ BitVec.allOnes 11 ∧ (wordBits w).count true % 2 = 1) ∧
    (w ≠ BitVec.allOnes 11 → (wordBits w).count true % 2 = 0 →
      let code := (w.extractLsb' 9 2).toNat
      classify w = classify (buildWord (if code = 0 then .idle else if code = 1 then .data else if code = 2 then .last
        else .ctrl) (w.extractLsb' 1 8))))

/-! ## Resets -/

/-- RESETn low holds the hard-reset state: no line is driven, INTn is high, every register reads 0, and no command but a
change of RESETn has an effect. From its release every block starts at its hard-reset values, which are those of State.reset
(R171, R172). -/
def Obligations.HardResetHoldsUntilRelease : Prop :=
  (∀ s : State, ∃ t, exec .resetAssert s = .next t ∧
    t.resetn = false ∧ t.hwclkPin = none ∧ t.hwsyncPin = none ∧ t.pullsData = false ∧ t.intnPin = true ∧
    (∀ off, readRegister t off = 0) ∧ t.readData = 0 ∧
    exec .resetRelease t = .next { State.reset with
      pending := s.pending, inputs := s.inputs, bus := s.bus, hwsense := s.hwsense, hwclkLow := s.hwclkLow, arb := s.arb }) ∧
  (∀ s : State, s.resetn = false → exec .resetRelease s = .next { s with resetn := true, gen := {} }) ∧
  (∀ (c : Instr) (s : State), s.resetn = false → c ≠ .resetAssert → c ≠ .resetRelease → exec c s = .next s)

/-- What the host reads from reset (R40, R58, R59, R60, R76, R99, R105, R126, R136, R141, R170, R172). That bit 6 of
TIMSTAT, the raw HWSENSE level, reads 0 is the model's choice (log entry 10). -/
def Obligations.ResetValuesRead : Prop :=
  let s := State.reset
  readRegister s 0x00 = 0x0832 ∧ readRegister s 0x02 = 0 ∧ readRegister s 0x03 = 0 ∧ readRegister s 0x04 = 0x0400 ∧
  readRegister s 0x05 = 100 ∧ readRegister s 0x06 = 0 ∧ readRegister s 0x07 = 0 ∧ readRegister s 0x08 = 0x0808 ∧
  readRegister s 0x09 = 128 ∧ readRegister s 0x0A = 0x0001 ∧ readRegister s 0x0B = 0 ∧ readRegister s 0x0C = 0 ∧
  readRegister s 0x10 = 0x8000 ∧ readRegister s 0x11 = 0 ∧ readRegister s 0x12 = 0 ∧ readRegister s 0x13 = 0 ∧
  readRegister s 0x14 = 3 ∧ readRegister s 0x15 = 0xC000 ∧ readRegister s 0x16 = 0 ∧ readRegister s 0x17 = 0 ∧
  readRegister s 0x18 = 0 ∧ readRegister s 0x19 = 16 ∧ readRegister s 0x1A = 12 ∧ readRegister s 0x1B = 4 ∧
  readRegister s 0x1C = 256 ∧ readRegister s 0x1D = 0x0410 ∧ readRegister s 0x1E = 0x4310 ∧
  readRegister s 0x1F = 256 ∧ readRegister s 0x28 = 512 ∧ readRegister s 0x30 = 0 ∧ readRegister s 0x31 = 0 ∧
  readRegister s 0x33 = 0xFF00 ∧ readRegister s 0x34 = 0 ∧ readRegister s 0x37 = 0 ∧ readRegister s 0x38 = 0

/-- SOFT_RESET returns all traffic state to its reset values and keeps the configuration, in every state, and shows DONE;
HWDATA is released from the next bit period, that of the local generator after DRIVING, that of HWCLK after LOCKED (R15,
R171, R173, R40, R58, R99, R126, R141, R158, R170). That a slot whose eleven bits have been worked and whose result is still
due is dropped too, so that a TX_SHUTDOWN of it does not clear tx_enable, is the model's choice, the order of R173 with the
reset first (log entry 25). -/
def Obligations.SoftResetKeepsConfiguration : Prop :=
  ∀ (s : State), s.resetn = true → ∃ t, exec .softReset s = .next t ∧
    t.tim = { role := s.tim.role, rank := s.tim.rank, limit := s.tim.limit, refdiv := s.tim.refdiv,
              lineUp := s.tim.lineUp, debounce := s.tim.debounce } ∧
    t.slot = .idle ∧ t.hwclkPin = none ∧ t.hwsyncPin = none ∧
    t.pullsData = (decide (s.dataHeld ≠ .released) || (s.pullsData && s.bitBegun)) ∧
    (s.dataHeld = .released → t.pullsData = true → t.dataHeld = if s.tim.st = .driving then .toLocalBit else .toLineBit false) ∧
    (s.map.commit = .pending →
      t.map = { s.map with commit := .idle, result := .cancelled, reason := .none, detail := 0 }) ∧
    (s.map.commit = .idle → t.map = s.map) ∧
    (∀ c, t.chan c = { cfg := (s.chan c).cfg }) ∧
    t.pool = { mem := s.pool.mem, reserve := s.pool.reserve, hyst := s.pool.hyst } ∧
    t.ring = { threshold := s.ring.threshold, timeout := s.ring.timeout } ∧
    t.ev = { enable := s.ev.enable, inten := s.ev.inten, page := s.ev.page } ∧
    t.cmd = { result := .done, reason := .none, code := 0x0F } ∧
    { t with tim := s.tim, slot := s.slot, map := s.map, chans := s.chans, pool := s.pool, ring := s.ring, ev := s.ev,
             cmd := s.cmd, dataHeld := s.dataHeld } = s

/-! ## The slot map -/

/-- A COMMIT that a check refuses: the checks in their order, the reason and the detail of the first that fails, in CMDSTAT,
in MAPSTAT and as COMMIT_REFUSED with that reason; nothing else changes, no bank, no other source, no enable, INTEN, the
view page or a drop detail; while a commit is pending it is refused with BUSY and changes CMDSTAT alone (R46, R47). A bank
gives a channel a slot by an entry below its frame length (R41). -/
def Obligations.CommitRefused : Prop :=
  (∀ (b : Bank) (k : SlotNo), b.slots = 8 * (b.len.val + 1) ∧ b.entry k.val = b.entries.get k) ∧
  (∀ (b : Bank) (m : SlotMode) (c : Chan), b.gives m c = true ↔
     ∃ k : SlotNo, k.val < 8 * (b.len.val + 1) ∧ b.entries.get k = { mode := m, chan := c }) ∧
  (∀ (s : State), s.resetn = true →
     let refused := fun (reason : Reason) (detail : Nat) => ∃ t, exec .commit s = .next t ∧
       t.cmd = { result := .refused, reason := reason, code := 0x01 } ∧
       t.map = { s.map with result := .refused, reason := reason, detail := detail } ∧
       t.isPending .commitRefused = true ∧ t.ev = { s.ev with latched := t.ev.latched, refusedDetail := reason } ∧
       (∀ x ∈ allSources, x ≠ .commitRefused → t.isPending x = s.isPending x) ∧
       { t with cmd := s.cmd, map := s.map, ev := s.ev } = s
     let lengthFails := s.map.shadow.len ≠ s.map.active.len ∧ s.tim.st ≠ .off
     let beyond := fun k : Nat => s.map.shadow.slots ≤ k ∧ (s.map.shadow.entry k).mode ≠ .unused
     let noPath := fun c : Chan => (s.chan c).cfg.rx = true ∧ (s.chan c).cfg.fc = true ∧
       s.map.shadow.gives .rx c = true ∧ s.map.shadow.gives .tx c = false
     (s.map.commit = .pending →
       exec .commit s = .next { s with cmd := { result := .refused, reason := .busy, code := 0x01 } }) ∧
     (s.map.commit = .idle → lengthFails → refused .lengthLocked 0) ∧
     (s.map.commit = .idle → ¬ lengthFails →
       ∀ k : Fin 32, beyond k → (∀ j : Fin 32, j < k → ¬ beyond j) → refused .slotBeyondFrame k) ∧
     (s.map.commit = .idle → ¬ lengthFails → (∀ k : Fin 32, ¬ beyond k) →
       ∀ c, noPath c → (∀ d, d < c → ¬ noPath d) → refused .noReturnPath c.val))

/-- A COMMIT that passes the checks: in LOCKED, DRIVING and FLYWHEEL it becomes PENDING and nothing is switched; in OFF,
LISTEN and SEARCH SHADOW is copied into ACTIVE at once, COMMIT_DONE is raised and every channel gets the switch notice, as
in SwitchTakesShadow: one descriptor joins the ring for each reservation of a channel left without an RX slot, in place of
that reservation, and the ready timer is then 0 (R46, R48, R49, R53, R122, R129, R137). -/
def Obligations.CommitAccepted : Prop :=
  ∀ (s : State), s.resetn = true → s.map.commit = .idle →
    (s.map.shadow.len = s.map.active.len ∨ s.tim.st = .off) →
    (∀ k : Fin 32, s.map.shadow.slots ≤ k.val → (s.map.shadow.entry k.val).mode = .unused) →
    (∀ c, (s.chan c).cfg.rx = true → (s.chan c).cfg.fc = true →
      s.map.shadow.gives .rx c = true → s.map.shadow.gives .tx c = true) →
    (s.tim.st = .locked ∨ s.tim.st = .driving ∨ s.tim.st = .flywheel →
      exec .commit s = .next { s with
        map := { s.map with commit := .pending, result := .none, reason := .none, detail := 0 }
        cmd := { result := .pending, reason := .none, code := 0x01 } }) ∧
    (s.tim.st = .off ∨ s.tim.st = .listen ∨ s.tim.st = .search → ∃ t, exec .commit s = .next t ∧
      t.cmd = { result := .done, reason := .none, code := 0x01 } ∧ switchMade s t)

/-- CANCEL ends a pending commit without a switch and shows DONE; with none pending it is refused with NOTHING_PENDING and
changes CMDSTAT alone. In neither case is an event raised or a bank changed (R51). -/
def Obligations.CancelEndsPendingCommit : Prop :=
  ∀ (s : State), s.resetn = true →
    (s.map.commit = .pending → exec .cancel s = .next { s with
      map := { s.map with commit := .idle, result := .cancelled, reason := .none, detail := 0 }
      cmd := { result := .done, reason := .none, code := 0x02 } }) ∧
    (s.map.commit = .idle → exec .cancel s = .next { s with
      cmd := { result := .refused, reason := .nothingPending, code := 0x02 } })

/-- A write to MAPDATA, by the first condition that holds: ignored with MAP_BUSY while a commit is pending; rejected with
CFG_REJECT while ACTIVE is selected, or with mode code 3; otherwise stored in SHADOW at the slot index, mode code 0 with
channel 0, and only then is the index advanced, with auto-increment, from 31 to 0 (R44). A write to MAPHDR is ignored with
MAP_BUSY while a commit is pending; in IDLE it stores the length code in the SHADOW header in every timing state; a read of
MAPHDR returns the length code of SHADOW (R45). -/
def Obligations.MapWritesStoreInShadow : Prop :=
  ∀ (w : Word) (s : State), s.resetn = true →
    let code := (w.extractLsb' 8 2).toNat
    let stored : MapEntry :=
      if code = 0 then { mode := .unused, chan := 0 }
      else { mode := if code = 1 then .tx else .rx, chan := Fin.ofNat 8 (w.extractLsb' 0 3).toNat }
    (s.map.commit = .pending → exec (.mapdataWrite w) s = .next { s with mapBusy := true }) ∧
    (s.map.commit = .idle → s.map.selActive = true → exec (.mapdataWrite w) s = .next { s with cfgReject := true }) ∧
    (s.map.commit = .idle → s.map.selActive = false → code = 3 →
      exec (.mapdataWrite w) s = .next { s with cfgReject := true }) ∧
    (s.map.commit = .idle → s.map.selActive = false → code ≠ 3 → ∃ t, exec (.mapdataWrite w) s = .next t ∧
      (∀ k : SlotNo, t.map.shadow.entries.get k = if k = s.map.index then stored else s.map.shadow.entries.get k) ∧
      t.map.index.val = (if s.map.autoInc then (s.map.index.val + 1) % 32 else s.map.index.val) ∧
      { t with map := { t.map with shadow := { t.map.shadow with entries := s.map.shadow.entries }
                                   index := s.map.index } } = s) ∧
    (readRegister s 0x14).toNat = s.map.shadow.len.val ∧
    (s.map.commit = .pending → exec (.maphdrWrite w) s = .next { s with mapBusy := true }) ∧
    (s.map.commit = .idle → ∃ t, exec (.maphdrWrite w) s = .next t ∧
      t.map.shadow.len.val = (w.extractLsb' 0 2).toNat ∧ readRegister t 0x14 = w &&& 0x0003 ∧
      { t with map := { t.map with shadow := { t.map.shadow with len := s.map.shadow.len } } } = s)

/-- A read of MAPDATA returns the entry at the slot index in the selected bank, mode code and channel, whatever the commit
state, and advances the index by one with auto-increment; where ACTIVE is selected and keeps its laws (no entry in use at or
above the frame length, and UNUSED entries with channel 0), an entry at or above the frame length reads as UNUSED with
channel 0 (R41, R43, R49). -/
def Obligations.MapdataReadReturnsEntry : Prop :=
  ∀ (s : State), s.resetn = true →
    let e := (if s.map.selActive then s.map.active else s.map.shadow).entries.get s.map.index
    ∃ t, exec .mapdataRead s = .next t ∧
      (t.readData.extractLsb' 0 3).toNat = e.chan.val ∧
      (t.readData.extractLsb' 8 2).toNat = (match e.mode with | .unused => 0 | .tx => 1 | .rx => 2) ∧
      t.readData &&& 0xFCF8 = 0 ∧
      t.map.index.val = (if s.map.autoInc then (s.map.index.val + 1) % 32 else s.map.index.val) ∧
      { t with readData := s.readData, map := { t.map with index := s.map.index } } = s ∧
      (s.map.selActive = true → s.map.active.withinFrame → s.map.active.unusedZero →
        s.map.active.slots ≤ s.map.index.val → t.readData = 0)

/-- A switch copies SHADOW into ACTIVE and raises COMMIT_DONE, and every channel gets the switch notice: without a TX slot a
head SENDING at an offset above 0 makes an uncounted restart, without an RX slot the message in progress ends and the peer
is ABSENT, with PEER_CHANGE if it was PRESENT; a channel that keeps its slots goes on. One descriptor, UNMAPPED, TRUNCATED
or OVERRUN, joins the ring for each reservation of a channel left without an RX slot, in place of that reservation, and the
ready timer is 0 where one does. Neither configuration, sticky flags, flow control nor the timing unit change (R49, R53,
R74, R92, R122, R129, R137). That SWITCH without a pending commit changes nothing is the model's choice (log entry 2). -/
def Obligations.SwitchTakesShadow : Prop :=
  ∀ (s : State), s.resetn = true →
    (s.map.commit = .idle → exec .switch s = .next s) ∧
    (s.map.commit = .pending → ∃ t, exec .switch s = .next t ∧ switchMade s t ∧ t.cmd = s.cmd)

/-! ## Timing -/

/-- TIMCFG writes: one with flywheel limit 0 or role code 3, or one that changes role or rank while enable is held at 1,
changes nothing but CFG_REJECT; an accepted one that takes enable from 0 to 1 stores its fields and enters LISTEN for MASTER
and SEARCH for FOLLOWER and STANDBY, with alignments, marks and counters cleared and no event; one that leaves enable as it
was stores its fields alone (R16, R20, R179). -/
def Obligations.TimcfgEnablesOrRejects : Prop :=
  ∀ (w : Word) (s : State), s.resetn = true →
    let role := (w.extractLsb' 0 2).toNat
    let rank := (w.extractLsb' 4 3).toNat
    let limit := (w.extractLsb' 8 4).toNat
    (limit = 0 ∨ role = 3 ∨ (s.tim.enable = true ∧ (role ≠ s.tim.role.code ∨ rank ≠ s.tim.rank.val)) →
      exec (.timingEnable w) s = .next { s with cfgReject := true } ∧
      exec (.timingDisable w) s = .next { s with cfgReject := true } ∧
      exec (.registerWrite 0x04 w) s = .next { s with cfgReject := true }) ∧
    (limit ≠ 0 → role ≠ 3 → s.tim.enable = false → w.getLsbD 15 = true → ∃ t, exec (.timingEnable w) s = .next t ∧
      t.tim.role.code = role ∧ t.tim.rank.val = rank ∧ t.tim.limit = limit ∧ t.tim.enable = true ∧
      t.tim.st = (if role = 1 then .listen else .search) ∧
      { t with tim := s.tim } = s ∧
      { t.tim with role := s.tim.role, rank := s.tim.rank, limit := s.tim.limit, enable := s.tim.enable, st := s.tim.st }
        = { s.tim with align := none, cand := none, bridge := false, listenCnt := 0, holdoffCnt := 0, flyCnt := 0 }) ∧
    (limit ≠ 0 → role ≠ 3 → s.tim.enable = w.getLsbD 15 →
      (s.tim.enable = true → role = s.tim.role.code ∧ rank = s.tim.rank.val) →
      ∃ t, exec (.registerWrite 0x04 w) s = .next t ∧ t.tim.role.code = role ∧ t.tim.rank.val = rank ∧
        t.tim.limit = limit ∧
        { t with tim := { t.tim with role := s.tim.role, rank := s.tim.rank, limit := s.tim.limit } } = s)

/-- TIMING_DISABLE takes the part to OFF: lines released, alignments none, counters 0, the yielded flag clear, the loss
cause, the frame counter and the line state kept, and from LOCKED, DRIVING and FLYWHEEL a traffic abort at every channel; a
pending commit switches. HWDATA is released from the next bit period, that of the local generator after DRIVING, that of
HWCLK after LOCKED, and a slot whose eleven bits have been worked delivers its result first (R15, R19, R21, R37, R50). -/
def Obligations.TimingDisableEndsInOff : Prop :=
  ∀ (w : Word) (s : State), s.resetn = true → s.tim.enable = true → w.getLsbD 15 = false →
    (w.extractLsb' 8 4).toNat ≠ 0 → (w.extractLsb' 0 2).toNat = s.tim.role.code →
    (w.extractLsb' 4 3).toNat = s.tim.rank.val → resultFirst (.timingDisable w) s ∧
    (s.slotOver = false → ∃ t, exec (.timingDisable w) s = .next t ∧
      t.tim = { s.tim with enable := false, limit := (w.extractLsb' 8 4).toNat, st := .off, align := none, cand := none,
                           bridge := false, listenCnt := 0, holdoffCnt := 0, flyCnt := 0, yielded := false,
                           pos := 0, lastSync := none, pulse := false } ∧
      t.hwclkPin = none ∧ t.hwsyncPin = none ∧
      t.pullsData = (decide (s.dataHeld ≠ .released) || (s.pullsData && s.bitBegun)) ∧
      (s.dataHeld = .released → t.pullsData = true → t.dataHeld = if s.tim.st = .driving then .toLocalBit else .toLineBit false) ∧
      t.cmd = s.cmd ∧ raisedWithin switchSources s t ∧
      switchEvents (decide (s.map.commit = .pending)) s t ∧ switchPeers (decide (s.map.commit = .pending)) s t ∧
      (s.tim.st = .locked ∨ s.tim.st = .driving ∨ s.tim.st = .flywheel →
        fallen s t ∧ ∀ c, abortedChannel (s.chan c) (t.chan c)) ∧
      (s.tim.st = .off ∨ s.tim.st = .listen ∨ s.tim.st = .search → s.map.commit = .idle →
        { t with tim := s.tim, slot := s.slot, dataHeld := s.dataHeld } = s))

/-- TIMING_RESTART is refused with NOT_RUNNING in OFF and changes CMDSTAT alone; elsewhere it is DONE and returns the unit
to LISTEN for MASTER and SEARCH for the others, as at enable, with a traffic abort from LOCKED, DRIVING and FLYWHEEL, the
yielded flag clear and the loss cause kept. HWDATA is released from the next bit period, that of the local generator after
DRIVING, that of HWCLK after LOCKED, and a slot whose eleven bits have been worked delivers its result first (R15, R22, R37,
R50). -/
def Obligations.TimingRestartReenters : Prop :=
  ∀ (s : State), s.resetn = true →
    (s.tim.st = .off → exec .timingRestart s = .next { s with
      cmd := { result := .refused, reason := .notRunning, code := 0x03 } }) ∧
    (s.tim.st ≠ .off → resultFirst .timingRestart s) ∧
    (s.tim.st ≠ .off → s.slotOver = false → ∃ t, exec .timingRestart s = .next t ∧
      t.tim = { s.tim with st := if s.tim.role = .master then .listen else .search, align := none, cand := none,
                           bridge := false, listenCnt := 0, holdoffCnt := 0, flyCnt := 0, yielded := false } ∧
      t.cmd = { result := .done, reason := .none, code := 0x03 } ∧
      t.hwclkPin = none ∧ t.hwsyncPin = none ∧
      t.pullsData = (decide (s.dataHeld ≠ .released) || (s.pullsData && s.bitBegun)) ∧
      (s.dataHeld = .released → t.pullsData = true → t.dataHeld = if s.tim.st = .driving then .toLocalBit else .toLineBit false) ∧
      raisedWithin switchSources s t ∧
      switchEvents (decide (s.map.commit = .pending)) s t ∧ switchPeers (decide (s.map.commit = .pending)) s t ∧
      (s.tim.st = .locked ∨ s.tim.st = .driving ∨ s.tim.st = .flywheel →
        fallen s t ∧ ∀ c, abortedChannel (s.chan c) (t.chan c)) ∧
      (s.tim.st = .listen ∨ s.tim.st = .search → s.map.commit = .idle →
        { t with tim := s.tim, slot := s.slot, cmd := s.cmd, dataHeld := s.dataHeld } = s))

/-- A sync pulse in LISTEN ends the listen: SEARCH with that pulse as its first, and a MASTER yields with MASTER_YIELDED. In
SEARCH a pulse exactly one frame after the one held completes the lock, raises LOCKED, and slot 0 begins at it, a TX slot 0
worked as UNUSED; any other pulse replaces the one held and restarts the holdoff (R24, R26, R31, R8). -/
def Obligations.PulseInListenAndSearch : Prop :=
  ∀ (s : State), s.resetn = true → s.tim.pulse = true →
    let taken := { s.tim with pulse := false }
    (s.tim.st = .listen → ∃ t, exec .syncPulse s = .next t ∧
      t.tim = { taken with st := .search, align := some s.tim.pos, listenCnt := 0, holdoffCnt := 0,
                           yielded := s.tim.yielded || decide (s.tim.role = .master) } ∧
      raisedOnly (if s.tim.role = .master then [.masterYielded] else []) s t ∧ { t with tim := s.tim, ev := s.ev } = s) ∧
    (s.tim.st = .search → (∀ a, s.tim.align = some a → a + 11 * s.map.active.slots ≠ s.tim.pos) →
      exec .syncPulse s = .next { s with tim := { taken with align := some s.tim.pos, holdoffCnt := 0 } }) ∧
    (∀ a : Nat, s.tim.st = .search → s.tim.align = some a → a + 11 * s.map.active.slots = s.tim.pos →
      ∃ t, exec .syncPulse s = .next t ∧
        t.tim = { taken with st := .locked, align := some s.tim.pos, cand := none, bridge := false, holdoffCnt := 0 } ∧
        raisedOnly [.locked] s t ∧
        t.slot = .inSlot { number := 0, entry := s.map.active.entry 0
                           work := if (s.map.active.entry 0).mode = .tx then .unused else (s.map.active.entry 0).mode
                           word := none, bits := [s.dataSample] } ∧
        (∀ c, t.chan c = { s.chan c with rx := { (s.chan c).rx with seen := false }
                                         peer := { (s.chan c).peer with mark := false } }) ∧
        { t with tim := s.tim, ev := s.ev, slot := s.slot, chans := s.chans } = s)

/-- Pulses that keep the alignment or only propose another. In LOCKED and FLYWHEEL a pulse neither expected nor one frame
after the candidate becomes the candidate and changes nothing else; in LOCKED the pulse that begins the frame in progress
clears the candidate and the bridge mark, and one that ends a frame of which every slot has been worked issues its boundary
and begins the next with the sample of its edge (log entry 6); in FLYWHEEL a pulse a whole number of frames after the
alignment re-locks without an event, with every channel where it stood (R18, R27, R30). -/
def Obligations.PulseKeepsLockOrIsStray : Prop :=
  ∀ (a : Nat) (s : State), s.resetn = true → s.tim.pulse = true → s.tim.align = some a →
    let taken := { s.tim with pulse := false }
    let frame := 11 * s.map.active.slots
    (s.tim.st = .locked → s.tim.pos ≠ a → s.tim.pos ≠ a + frame → (∀ p, s.tim.cand = some p → p + frame ≠ s.tim.pos) →
      exec .syncPulse s = .next { s with tim := { taken with cand := some s.tim.pos } }) ∧
    (s.tim.st = .locked → s.tim.pos = a →
      exec .syncPulse s = .next { s with tim := { taken with cand := none, bridge := false } }) ∧
    (s.tim.st = .locked → s.tim.pos = a + frame → s.slot = .frameDone → ∃ t, exec .syncPulse s = .next t ∧
      t.tim = { taken with align := some s.tim.pos, cand := none, bridge := false, frameCnt := s.tim.frameCnt + 1 } ∧
      t.map = (if s.map.commit = .pending then afterSwitch s.map else s.map) ∧
      t.slot = .inSlot { number := 0, entry := t.map.active.entry 0, work := (t.map.active.entry 0).mode
                         word := none, bits := [s.dataSample] } ∧
      { t with tim := s.tim, slot := s.slot, map := s.map, chans := s.chans, ring := s.ring, ev := s.ev, arb := s.arb } = s) ∧
    (s.tim.st = .flywheel → ¬ (a ≤ s.tim.pos ∧ frame ∣ s.tim.pos - a) →
      (∀ p, s.tim.cand = some p → p + frame ≠ s.tim.pos) →
      exec .syncPulse s = .next { s with tim := { taken with cand := some s.tim.pos } }) ∧
    (s.tim.st = .flywheel → a ≤ s.tim.pos → frame ∣ s.tim.pos - a → ∃ t, exec .syncPulse s = .next t ∧
      t.tim = { taken with st := .locked, align := some s.tim.pos, cand := none, flyCnt := 0 } ∧
      (∃ x, t.slot = .inSlot x ∧ x.number = 0 ∧ x.entry = s.map.active.entry 0 ∧ x.work ≠ .tx) ∧
      (∀ c, t.chan c = { s.chan c with rx := { (s.chan c).rx with seen := false }
                                       peer := { (s.chan c).peer with mark := false } }) ∧
      { t with tim := s.tim, slot := s.slot, chans := s.chans } = s)

/-- A sync pulse one frame after the candidate, in LOCKED or FLYWHEEL and not expected, realigns the part: LOCKED on it,
cause SLIP, SLIP raised, slot 0 begun at it, a traffic abort at every channel, no frame boundary, the data-seen flags
cleared, and a pending commit still waits (R29, R37, R50, R119). In DRIVING the part's own pulse, on its alignment, needs no
action; any other is a conflict: SEARCH with it as the first pulse, the lines released, the yielded flag set, cause
CONFLICT, MASTER_YIELDED raised, a traffic abort at every channel, and a pending commit switches (R25, R19, R37, R50). That
the slot whose eleventh bit is the pulse's own edge is abandoned too, without a result, and that its pull on HWDATA ends
with that edge, is the model's reading of R15 (log entry 25). -/
def Obligations.PulseThatEndsTheAlignment : Prop :=
  (∀ (a p : Nat) (s : State), s.resetn = true → s.tim.pulse = true → s.tim.align = some a → s.tim.cand = some p →
     p + 11 * s.map.active.slots = s.tim.pos →
     (s.tim.st = .locked ∧ s.tim.pos ≠ a ∧ s.tim.pos ≠ a + 11 * s.map.active.slots ∨
       s.tim.st = .flywheel ∧ ¬ (a ≤ s.tim.pos ∧ 11 * s.map.active.slots ∣ s.tim.pos - a)) →
     ∃ t, exec .syncPulse s = .next t ∧
       t.tim = { s.tim with pulse := false, st := .locked, align := some s.tim.pos, cand := none, bridge := false,
                            flyCnt := 0, loss := .slip } ∧
       t.isPending .slip = true ∧ raisedWithin [.slip] s t ∧ ringEnds false s t ∧
       { t with tim := s.tim, slot := s.slot, chans := s.chans, ring := s.ring, ev := s.ev, arb := s.arb } = s ∧
       (∃ x, t.slot = .inSlot x ∧ x.number = 0 ∧ x.entry = s.map.active.entry 0 ∧ x.bits = [s.dataSample] ∧
          x.work ≠ .tx) ∧
       ∀ c, abortedChannel (s.chan c) (t.chan c) ∧ (t.chan c).peer = { (s.chan c).peer with mark := false } ∧
         (t.chan c).rx.seen = false) ∧
  (∀ (a : Nat) (s : State), s.resetn = true → s.tim.pulse = true → s.tim.st = .driving → s.tim.align = some a →
     (a ≤ s.tim.pos ∧ 11 * s.map.active.slots ∣ s.tim.pos - a →
       exec .syncPulse s = .next { s with tim := { s.tim with pulse := false } }) ∧
     (¬ (a ≤ s.tim.pos ∧ 11 * s.map.active.slots ∣ s.tim.pos - a) → ∃ t, exec .syncPulse s = .next t ∧
       t.tim = { s.tim with pulse := false, st := .search, align := some s.tim.pos, cand := none, bridge := false,
                            holdoffCnt := 0, yielded := true, loss := .conflict } ∧
       t.isPending .masterYielded = true ∧ raisedWithin (.masterYielded :: switchSources) s t ∧
       switchEvents (decide (s.map.commit = .pending)) s t ∧ t.cmd = s.cmd ∧
       t.hwclkPin = none ∧ t.hwsyncPin = none ∧ t.pullsData = decide (s.dataHeld ≠ .released) ∧ fallen s t ∧
       ∀ c, abortedChannel (s.chan c) (t.chan c)))

/-- A rising edge of HWCLK sets the edge mark in every timing state; outside OFF it counts one position and shows a sync
pulse when HWSYNC is high and was not sampled high at the edge before (R3, R18, R28). In a slot its HWDATA sample joins the
slot's eleven bits, and an UNUSED slot ends with its eleventh (R8, R9); a TX or RX slot whose eleven bits were taken before
it delivers its result first (R15). The bit period that an edge samples has begun once HWCLK is low (R2). The part drives
HWCLK and HWSYNC in DRIVING only: HWCLK low for the first half of the local bit period, rounded up, and HWSYNC high for bit
period 0 of each local frame period, which is a frame the part makes (R1, R17, R19); without a slot in progress HWDATA is
pulled only by what an abandoned slot left (R1, R15). -/
def Obligations.RisingEdgeCountsAndSamples : Prop :=
  (∀ (sync data : Bool) (s : State), s.resetn = true → resultFirst (.hwclkRisingEdge sync data) s) ∧
  (∀ (sync data : Bool) (s : State), s.resetn = true → s.slotOver = false → ∃ t, exec (.hwclkRisingEdge sync data) s = .next t ∧
     t.tim = (if s.tim.st = .off then { s.tim with edgeMark := true }
       else { s.tim with edgeMark := true, pos := s.tim.pos + 1, lastSync := some sync,
                         pulse := sync && decide (s.tim.lastSync ≠ some true) }) ∧
     t.dataSample = data ∧ t.dataHeld = .released ∧ t.hwclkLow = false ∧
     { t with tim := s.tim, dataSample := s.dataSample, slot := s.slot, dataHeld := s.dataHeld, hwclkLow := s.hwclkLow } = s ∧
     ((∀ x, s.slot ≠ .inSlot x) → t.slot = s.slot) ∧
     (∀ x, s.slot = .inSlot x → x.bits.length < 11 → (x.work ≠ .unused ∨ x.bits.length < 10) →
       t.slot = .inSlot { x with bits := x.bits ++ [data] }) ∧
     (∀ x, s.slot = .inSlot x → x.bits.length = 10 → x.work = .unused →
       t.slot = if x.number + 1 < s.map.active.slots
         then .inSlot { number := x.number + 1, entry := s.map.active.entry (x.number + 1)
                        work := (s.map.active.entry (x.number + 1)).mode, word := none, bits := [] }
         else .frameDone)) ∧
  (∀ s : State,
     (s.tim.st ≠ .driving → s.hwclkPin = none ∧ s.hwsyncPin = none) ∧
     (s.tim.st = .driving → s.hwclkPin = some (decide ((s.gen.div + 1) / 2 ≤ s.gen.ref)) ∧
       s.hwsyncPin = some (decide (s.gen.bit = 0))) ∧
     ((∀ x, s.slot ≠ .inSlot x) → s.pullsData = decide (s.dataHeld ≠ .released)) ∧
     s.bitBegun = (if s.tim.st = .driving then decide (s.gen.ref < (s.gen.div + 1) / 2) else s.hwclkLow))

/-- A frame of which every slot has been worked ends with a frame boundary, in LOCKED and DRIVING: the frame counter rises
by 1 and a pending commit switches. In DRIVING, and in LOCKED with its pulse, the next frame begins one frame later; in
LOCKED without it, a candidate held and no bridge mark begin the bridge frame, and otherwise the part enters FLYWHEEL with
the counter at 1, the candidate kept. COMMIT_DONE is raised exactly where a commit switched, and PEER_CHANGE(c) only where
the switch takes the RX slots of a PRESENT channel or the frame's judgement changes its presence (R27, R28, R35, R36, R50,
R73, R74). -/
def Obligations.FrameBoundaryEndsTheFrame : Prop :=
  ∀ (pulse : Bool) (s : State), s.resetn = true → s.slot = .frameDone → (s.tim.st = .locked ∨ s.tim.st = .driving) →
    (s.map.commit = .pending → s.map.shadow.len = s.map.active.len) →
    ∃ t, exec (.frameBoundary pulse) s = .next t ∧
      let counted := { s.tim with frameCnt := s.tim.frameCnt + 1 }
      let next := { counted with align := s.tim.align.map fun a => a + 11 * s.map.active.slots }
      let begun : SlotPhase := .inSlot { number := 0, entry := t.map.active.entry 0, work := (t.map.active.entry 0).mode
                                         word := none, bits := [] }
      t.map = (if s.map.commit = .pending then afterSwitch s.map else s.map) ∧
      t.isPending .commitDone = (s.isPending .commitDone || (decide (s.map.commit = .pending))) ∧
      (∀ c, t.isPending (.peerChange c) = true → s.isPending (.peerChange c) = true ∨
        ((decide (s.map.commit = .pending)) = true ∧ s.map.shadow.gives .rx c = false ∧ (s.chan c).peer.present = true) ∨
        (s.map.active.gives .rx c = true ∧ (s.chan c).peer.present = false ∧ (s.chan c).peer.mark = true) ∨
        (s.map.active.gives .rx c = true ∧ (s.chan c).peer.present = true ∧ (s.chan c).peer.mark = false ∧
          7 ≤ (s.chan c).peer.silence)) ∧
      raisedWithin (switchSources ++ channels.map .holdExpired) s t ∧ s.ring.entries <+: t.ring.entries ∧
      { t with tim := s.tim, slot := s.slot, map := s.map, chans := s.chans, ring := s.ring, ev := s.ev, arb := s.arb } = s ∧
      (s.tim.st = .driving → t.tim = next ∧ t.slot = begun) ∧
      (s.tim.st = .locked → pulse = true → t.tim = { next with cand := none, bridge := false } ∧ t.slot = begun) ∧
      (s.tim.st = .locked → pulse = false → s.tim.cand.isSome = true → s.tim.bridge = false →
        t.tim = { next with bridge := true } ∧ t.slot = begun) ∧
      (s.tim.st = .locked → pulse = false → (s.tim.cand = none ∨ s.tim.bridge = true) →
        t.tim = { counted with st := .flywheel, flyCnt := 1, bridge := false } ∧ t.slot = .idle)

/-- What a frame boundary does to the timers of every channel and of the ring: refresh and hold counting always; with no
commit pending, peer presence, and, for a message that does not end here, the gap counter; with no commit pending and no gap
expiring, the ready timer (R36, R73, R119, R120, R137, R147, R154). That a gap counter standing at 255 is compared too is
the model's reading (log entry 20). -/
def Obligations.FrameBoundaryStepsTimers : Prop :=
  ∀ (pulse : Bool) (s : State), s.resetn = true → s.slot = .frameDone → (s.tim.st = .locked ∨ s.tim.st = .driving) →
    ∃ t, exec (.frameBoundary pulse) s = .next t ∧
      (∀ c, let x := s.chan c; let y := t.chan c
        (x.fl.asserted = true → x.fl.refresh + 1 < x.cfg.p →
          y.fl.refresh = x.fl.refresh + 1 ∧ y.fl.pauseOwed = x.fl.pauseOwed) ∧
        (x.fl.asserted = true → x.cfg.p ≤ x.fl.refresh + 1 → y.fl.refresh = 0 ∧ y.fl.pauseOwed = true) ∧
        (x.fl.asserted = false → y.fl.refresh = x.fl.refresh ∧ y.fl.pauseOwed = x.fl.pauseOwed) ∧
        (x.fl.held = true → x.fl.holdCnt + 1 < x.cfg.h → y.fl.held = true ∧ y.fl.holdCnt = x.fl.holdCnt + 1) ∧
        (x.fl.held = true → x.cfg.h ≤ x.fl.holdCnt + 1 →
          y.fl.held = false ∧ y.fl.holdCnt = 0) ∧
        (x.fl.held = false → y.fl.held = false ∧ y.fl.holdCnt = x.fl.holdCnt) ∧
        y.fl = { x.fl with refresh := y.fl.refresh, pauseOwed := y.fl.pauseOwed, held := y.fl.held, holdCnt := y.fl.holdCnt } ∧
        y.cfg = x.cfg ∧ y.sticky = x.sticky ∧ y.held = x.held ∧ (s.map.commit = .idle → y.tx = x.tx) ∧
        (s.map.commit = .idle → x.rx.st = .idle → y.rx = { x.rx with seen := false }) ∧
        (s.map.commit = .idle → s.map.active.gives .rx c = true → y.peer.mark = false ∧
          (x.peer.mark = true → y.peer.present = true ∧ y.peer.silence = 0) ∧
          (x.peer.mark = false → y.peer.silence = min 8 (x.peer.silence + 1) ∧
            y.peer.present = (x.peer.present && decide (x.peer.silence + 1 < 8)))) ∧
        (s.map.commit = .idle → s.map.active.gives .rx c = false →
          y.peer.present = x.peer.present ∧ y.peer.silence = x.peer.silence) ∧
        (s.map.commit = .idle → t.isPending (.peerChange c) =
          (s.isPending (.peerChange c) || decide (y.peer.present ≠ x.peer.present))) ∧
        t.isPending (.holdExpired c) = (s.isPending (.holdExpired c) || (x.fl.held && !y.fl.held)) ∧
        (s.map.commit = .idle → x.rx.st ≠ .idle → x.rx.seen = true → y.rx = { x.rx with gap := 0, seen := false }) ∧
        (s.map.commit = .idle → x.rx.st ≠ .idle → x.rx.seen = false → x.fl.asserted = true → y.rx = x.rx) ∧
        (s.map.commit = .idle → x.rx.st ≠ .idle → x.rx.seen = false → x.fl.asserted = false →
          (x.cfg.gapLimit = 0 ∨ min 255 (x.rx.gap + 1) < x.cfg.gapLimit) →
          y.rx = { x.rx with gap := min 255 (x.rx.gap + 1) }) ∧
        (s.map.commit = .idle → x.rx.st ≠ .idle → x.rx.seen = false → x.fl.asserted = false → x.cfg.gapLimit ≠ 0 →
          x.cfg.gapLimit ≤ min 255 (x.rx.gap + 1) → y.rx = endedUnit x.rx)) ∧
      (s.map.commit = .idle →
        (∀ c, let x := s.chan c
          x.rx.st = .idle ∨ x.rx.seen = true ∨ x.fl.asserted = true ∨ x.cfg.gapLimit = 0 ∨
            min 255 (x.rx.gap + 1) < x.cfg.gapLimit) →
        t.ring = { s.ring with
          timer := if s.ring.entries.isEmpty then s.ring.timer else min 255 (s.ring.timer + 1) })

/-- LISTEN_WINDOW: the listen counter reaches 2, the part drives, and MASTER_ACTIVE or TOOK_OVER is raised; slot 0 of the
first driven frame begins at the next rising edge and is worked by its entry (R23, R19, R8, R9). HOLDOFF_LIMIT: a standby in
SEARCH with the line UP whose holdoff reaches (rank+1)*4 enters LISTEN without an event (R31). The first driven frame begins
with the local frame period that starts there: HWCLK falls, HWSYNC is high, and a pull left on HWDATA ends (R15, R17). That
before their limits the two change nothing, and that a unit in LISTEN other than a MASTER counts as a standby, is the
model's choice (log entries 2 and 21). -/
def Obligations.ListenAndHoldoffLimits : Prop :=
  ∀ (s : State), s.resetn = true →
    (s.tim.st = .listen → s.tim.listenCnt = 1 → ∃ t, exec .listenWindow s = .next t ∧
      t.tim = { s.tim with st := .driving, listenCnt := 0, align := some (s.tim.pos + 1) } ∧
      raisedOnly [if s.tim.role = .master then .masterActive else .tookOver] s t ∧
      t.slot = .inSlot { number := 0, entry := s.map.active.entry 0, work := (s.map.active.entry 0).mode
                         word := none, bits := [] } ∧
      t.gen = { div := s.tim.refdiv, ref := 0, len := s.map.active.slots, bit := 0 } ∧
      t.pullsData = false ∧ t.hwsyncPin = some true ∧ (1 ≤ s.tim.refdiv → t.hwclkPin = some false) ∧
      (∀ c, t.chan c = { s.chan c with rx := { (s.chan c).rx with seen := false }
                                       peer := { (s.chan c).peer with mark := false } }) ∧
      { t with tim := s.tim, gen := s.gen, ev := s.ev, slot := s.slot, chans := s.chans, dataHeld := s.dataHeld } = s) ∧
    (s.tim.st = .search → s.tim.role = .standby → s.tim.lineUp = true → s.tim.holdoffCnt + 1 = (s.tim.rank.val + 1) * 4 →
      exec .holdoffLimit s = .next { s with tim := { s.tim with st := .listen, listenCnt := 0, holdoffCnt := 0 } }) ∧
    (s.tim.st ≠ .listen ∨ s.tim.listenCnt = 0 → exec .listenWindow s = .next s) ∧
    (s.tim.st ≠ .search ∨ s.tim.role ≠ .standby ∨ s.tim.lineUp = false ∨ s.tim.holdoffCnt + 1 < (s.tim.rank.val + 1) * 4 →
      exec .holdoffLimit s = .next s)

/-- FLYWHEEL_EXPIRY: the part falls to SEARCH without an alignment, with a traffic abort at every channel; SYNC_LOST and the
loss cause follow the line: LINE and no event while it is DOWN, SYNC and SYNC_LOST while it is UP with no debounce running,
deferred while one runs (R30, R33, R37, R50). CLOCK_LOST: a whole local frame period without a rising edge in LOCKED takes
the part to FLYWHEEL with the counter at 1 and the bridge mark clear, the alignment and the candidate kept, the slot
abandoned and a traffic abort at every channel; no event is raised, no frame boundary is issued and a pending commit waits;
HWDATA is released from the next bit period of HWCLK, and a slot whose eleven bits have been worked delivers its result
first (R15, R28, R37, R50). Not due, neither does anything (log entry 2). -/
def Obligations.FlywheelExpiryAndClockLoss : Prop :=
  (∀ (s : State), s.resetn = true → s.tim.st = .flywheel → s.tim.limit ≤ s.tim.flyCnt →
     ∃ t, exec .flywheelExpiry s = .next t ∧
       let fell := { s.tim with st := .search, align := none, holdoffCnt := 0, cand := none, bridge := false, flyCnt := 0 }
       (s.tim.lineUp = false → t.tim = { fell with loss := .line } ∧ t.isPending .syncLost = s.isPending .syncLost) ∧
       (s.tim.lineUp = true → s.tim.debounce = 0 → t.tim = { fell with loss := .sync } ∧ t.isPending .syncLost = true) ∧
       (s.tim.lineUp = true → s.tim.debounce ≠ 0 →
         t.tim = { fell with deferred := true } ∧ t.isPending .syncLost = s.isPending .syncLost) ∧
       raisedWithin (.syncLost :: switchSources) s t ∧ switchEvents (decide (s.map.commit = .pending)) s t ∧
       t.cmd = s.cmd ∧ t.pullsData = decide (s.dataHeld ≠ .released) ∧ fallen s t ∧
       ∀ c, abortedChannel (s.chan c) (t.chan c)) ∧
  (∀ (s : State), s.resetn = true → s.tim.st = .locked → s.tim.edgeMark = false → resultFirst .clockLost s) ∧
  (∀ (s : State), s.resetn = true → s.tim.st = .locked → s.tim.edgeMark = false → s.slotOver = false →
     ∃ t, exec .clockLost s = .next t ∧
       t.pullsData = (decide (s.dataHeld ≠ .released) || (s.pullsData && s.bitBegun)) ∧
       (s.dataHeld = .released → t.pullsData = true → t.dataHeld = .toLineBit false) ∧
       t.tim = { s.tim with st := .flywheel, flyCnt := 1, bridge := false } ∧ t.slot = .idle ∧
       ringEnds false s t ∧
       { t with tim := s.tim, slot := s.slot, chans := s.chans, ring := s.ring, arb := s.arb, dataHeld := s.dataHeld } = s ∧
       ∀ c, abortedChannel (s.chan c) (t.chan c) ∧ (t.chan c).peer = (s.chan c).peer ∧
         ((s.chan c).rx.st = .idle → (t.chan c).rx.seen = (s.chan c).rx.seen)) ∧
  (∀ (s : State), s.resetn = true →
     (s.tim.st ≠ .flywheel ∨ s.tim.flyCnt < s.tim.limit → exec .flywheelExpiry s = .next s) ∧
     (s.tim.st ≠ .locked ∨ s.tim.edgeMark = true → exec .clockLost s = .next s))

/-- DEBOUNCE_COMPLETE: the eighth differing sample changes the debounced line state, raises LINE_UP or LINE_DOWN, stops the
holdoff, and on the way DOWN resolves a deferred SYNC_LOST as a line loss without the event (R31, R32, R34). -/
def Obligations.DebounceChangesTheLine : Prop :=
  ∀ (s : State), s.resetn = true → s.tim.debounce = 7 → ∃ t, exec .debounceComplete s = .next t ∧
    raisedOnly [if s.tim.lineUp then .lineDown else .lineUp] s t ∧
    t.hwsense = !s.tim.lineUp ∧
    t.tim = { s.tim with lineUp := !s.tim.lineUp, debounce := 0, holdoffCnt := 0,
                         deferred := s.tim.deferred && !s.tim.lineUp,
                         loss := if s.tim.deferred && s.tim.lineUp then .line else s.tim.loss } ∧
    { t with tim := s.tim, ev := s.ev, hwsense := s.hwsense } = s

/-- An end of a local frame period at which no limit is reached: the line is sampled (R32, R34), the counter of the timing
state takes its step (R23, R30, R31), the edge mark is cleared (R28) and a new local frame period begins with the frame
length and the divisor in force (R17). A pull left on HWDATA for a local bit period ends there (R15), and one left for a bit
period of HWCLK ends at the second end since it was left, no edge of HWCLK having come in the whole period between (log
entry 25). Nothing else changes but a SYNC_LOST that an abandoned debounce resolves. At an end at which the state's limit is
reached, the line sampled without a change, the state moves on (R23, R28, R30, R31), and in DRIVING a frame with every slot
worked ends there and the next begins (R25). That a slot still in progress in DRIVING stays with the frame counter is the
model's choice (log entries 3 and 6), and so is that an end brings one step, of the state the part was in before it, after
the line's sample (log entry 14). At an end with the eighth differing sample the line changes too, and a deferred loss or a
flywheel that expires there is settled by the new line (R32, R33, R34, R39); that the holdoff is 0, not 1, after an end at
which the line comes UP is the model's choice (log entry 13). -/
def Obligations.LocalPeriodEndSteps : Prop :=
  (∀ (sense : Bool) (s : State), s.resetn = true → s.tim.debounce < 7 → s.tim.st ≠ .driving →
     (s.tim.st = .listen → s.tim.listenCnt = 0) →
     (s.tim.st = .search → s.tim.holdoffCnt + 1 < (s.tim.rank.val + 1) * 4) →
     (s.tim.st = .flywheel → s.tim.flyCnt < s.tim.limit) → (s.tim.st = .locked → s.tim.edgeMark = true) →
     let resolved := s.tim.deferred && s.tim.lineUp && sense
     ∃ t, exec (.localFramePeriodEnd sense) s = .next t ∧
       t.tim = { s.tim with
         edgeMark := false
         debounce := if sense = s.tim.lineUp then 0 else s.tim.debounce + 1
         deferred := s.tim.deferred && !resolved
         loss := if resolved then .sync else s.tim.loss
         listenCnt := if s.tim.st = .listen then 1 else s.tim.listenCnt
         holdoffCnt := if s.tim.st = .search ∧ s.tim.role = .standby ∧ s.tim.lineUp = true then s.tim.holdoffCnt + 1
           else s.tim.holdoffCnt
         flyCnt := if s.tim.st = .flywheel then s.tim.flyCnt + 1 else s.tim.flyCnt } ∧
       raisedOnly (if resolved then [.syncLost] else []) s t ∧
       t.gen = { div := s.tim.refdiv, ref := 0, len := s.map.active.slots, bit := 0 } ∧ t.hwsense = sense ∧
       t.dataHeld = (if s.dataHeld = .toLineBit false then .toLineBit true else .released) ∧
       { t with tim := s.tim, ev := s.ev, gen := s.gen, hwsense := s.hwsense, dataHeld := s.dataHeld } = s) ∧
  (∀ (s : State), s.resetn = true → ∃ t, exec (.localFramePeriodEnd s.tim.lineUp) s = .next t ∧
     t.tim.lineUp = s.tim.lineUp ∧ t.tim.debounce = 0 ∧ t.tim.edgeMark = false ∧ t.hwsense = s.tim.lineUp ∧
     t.gen = { div := s.tim.refdiv, ref := 0, len := t.map.active.slots, bit := 0 } ∧
     (s.dataHeld ≠ .toLineBit false → (s.tim.st = .locked → s.tim.edgeMark = true) → t.dataHeld = .released) ∧
     (s.dataHeld = .toLineBit false → t.tim.st ≠ .driving → t.dataHeld = .toLineBit true) ∧
     (s.tim.st = .listen → s.tim.listenCnt = 1 → t.tim.st = .driving ∧ t.tim.listenCnt = 0) ∧
     (s.tim.st = .search → s.tim.role = .standby → s.tim.lineUp = true → s.tim.holdoffCnt + 1 = (s.tim.rank.val + 1) * 4 →
       t.tim.st = .listen ∧ t.tim.holdoffCnt = 0) ∧
     (s.tim.st = .flywheel → s.tim.limit ≤ s.tim.flyCnt → t.tim.st = .search ∧ t.tim.flyCnt = 0 ∧ t.tim.align = none) ∧
     (s.tim.st = .locked → s.tim.edgeMark = false → t.tim.st = .flywheel ∧ t.tim.flyCnt = 1) ∧
     (s.tim.st = .driving → t.tim.st = .driving ∧
       (s.slot ≠ .frameDone → t.tim.frameCnt = s.tim.frameCnt ∧ t.slot = s.slot) ∧
       (s.slot = .frameDone → t.tim.frameCnt = s.tim.frameCnt + 1 ∧ ∃ x, t.slot = .inSlot x ∧ x.number = 0))) ∧
  (∀ (s : State), s.resetn = true → s.tim.debounce = 7 →
     let up := !s.tim.lineUp
     ∃ t, exec (.localFramePeriodEnd up) s = .next t ∧
       t.tim.lineUp = up ∧ t.tim.debounce = 0 ∧ t.tim.edgeMark = false ∧ t.hwsense = up ∧ t.tim.holdoffCnt = 0 ∧
       t.isPending (if up then .lineUp else .lineDown) = true ∧
       t.gen = { div := s.tim.refdiv, ref := 0, len := t.map.active.slots, bit := 0 } ∧
       (s.dataHeld ≠ .toLineBit false → (s.tim.st = .locked → s.tim.edgeMark = true) → t.dataHeld = .released) ∧
       (s.dataHeld = .toLineBit false → t.tim.st ≠ .driving → t.dataHeld = .toLineBit true) ∧
       (s.tim.st ≠ .flywheel → t.tim.deferred = (s.tim.deferred && up) ∧
         t.tim.loss = if s.tim.deferred && !up then .line else s.tim.loss) ∧
       (s.tim.st = .flywheel → s.tim.limit ≤ s.tim.flyCnt → t.tim.st = .search ∧
         t.tim.loss = (if up then .sync else .line) ∧
         t.isPending .syncLost = (s.isPending .syncLost || up)) ∧
       (s.tim.st = .search → s.tim.role = .standby → s.tim.lineUp = true → s.tim.holdoffCnt + 1 = (s.tim.rank.val + 1) * 4 →
         t.tim.st = .search ∨ t.tim.st = .listen ∧ t.tim.listenCnt = 0) ∧
       (s.tim.st ≠ .driving → (s.tim.st = .listen → s.tim.listenCnt = 0) → (s.tim.st = .locked → s.tim.edgeMark = true) →
         (s.tim.st = .flywheel → s.tim.flyCnt < s.tim.limit) →
         (s.tim.st = .search → s.tim.role = .standby → s.tim.lineUp = true →
           s.tim.holdoffCnt + 1 < (s.tim.rank.val + 1) * 4) →
         t.tim = { s.tim with
           lineUp := up, debounce := 0, edgeMark := false, holdoffCnt := 0
           deferred := s.tim.deferred && up
           loss := if s.tim.deferred && !up then .line else s.tim.loss
           listenCnt := if s.tim.st = .listen then 1 else s.tim.listenCnt
           flyCnt := if s.tim.st = .flywheel then s.tim.flyCnt + 1 else s.tim.flyCnt } ∧
         raisedOnly [if up then .lineUp else .lineDown] s t ∧
         { t with tim := s.tim, ev := s.ev, gen := s.gen, hwsense := s.hwsense, dataHeld := s.dataHeld } = s))

/-! ## Limits reached at a frame boundary -/

/-- GAP_EXPIRY: a message whose gap counter reaches gap_limit ends: from OPEN with status GAP and its bytes, from TRUNCATING
and OVERRUN with that status, OVERRUN without bytes; its descriptor joins the tail of the ring in place of its reservation,
stamped with the frame counter, and a sequence value is consumed; from STARVED without a descriptor. The receive unit is
IDLE (R108, R115, R116, R118, R120, R129, R130). That a gap counter standing at 255 is compared too is the model's reading
(log entry 20). -/
def Obligations.GapExpiryEndsTheMessage : Prop :=
  ∀ (c : Chan) (s : State), s.resetn = true → (s.tim.st = .locked ∨ s.tim.st = .driving) →
    let x := s.chan c
    x.rx.st ≠ .idle → x.rx.seen = false → x.fl.asserted = false → x.cfg.gapLimit ≠ 0 →
    x.cfg.gapLimit ≤ min 255 (x.rx.gap + 1) →
    ∃ t, exec (.gapExpiry c) s = .next t ∧ onlyChannel c s t ∧
      { t.chan c with rx := x.rx } = x ∧
      (t.chan c).rx = { st := .idle, first := none, cur := none, fill := 0, len := 0, damaged := false, gap := 0,
                        seen := false, seq := if x.rx.st = .starved then x.rx.seq else x.rx.seq + 1 } ∧
      (x.rx.st = .starved → t.ring = s.ring) ∧
      (x.rx.st ≠ .starved → t.ring = { s.ring with
        entries := s.ring.entries ++ [endedAs c .gap s], reserved := s.ring.reserved - 1, timer := 0 }) ∧
      { t with chans := s.chans, ring := s.ring } = s

/-- Limits of single units at a frame boundary. REFRESH: an asserted local pause whose refresh counter reaches P owes PAUSE
again (R147). HOLD_EXPIRED: a remote pause whose hold counter reaches H is GO again and raises HOLD_EXPIRED(c) (R154).
PEER_ABSENT: the eighth all-silent frame makes a PRESENT channel with an RX slot ABSENT and raises PEER_CHANGE(c) (R73).
READY_TIMEOUT: with entries in the ring, the timer that reaches a ready timeout other than 0 makes RX_READY pending (R137,
R138). Nothing else changes, and nothing at all where no limit is reached (log entry 2). -/
def Obligations.BoundaryLimitsAct : Prop :=
  ∀ (c : Chan) (s : State), s.resetn = true → (s.tim.st = .locked ∨ s.tim.st = .driving) →
    let x := s.chan c
    (x.fl.asserted = true → x.cfg.p ≤ x.fl.refresh + 1 → ∃ t, exec (.refresh c) s = .next t ∧
      t.chan c = { x with fl := { x.fl with pauseOwed := true, refresh := 0 } } ∧ onlyChannel c s t ∧
      { t with chans := s.chans } = s) ∧
    (x.fl.held = true → x.cfg.h ≤ x.fl.holdCnt + 1 → ∃ t, exec (.holdExpired c) s = .next t ∧
      t.chan c = { x with fl := { x.fl with held := false, holdCnt := 0 } } ∧ onlyChannel c s t ∧
      raisedOnly [.holdExpired c] s t ∧ { t with chans := s.chans, ev := s.ev } = s) ∧
    (s.map.active.gives .rx c = true → x.peer.present = true → x.peer.mark = false → x.peer.silence = 7 →
      ∃ t, exec (.peerAbsent c) s = .next t ∧
        t.chan c = { x with peer := { present := false, silence := 8, mark := false } } ∧ onlyChannel c s t ∧
        raisedOnly [.peerChange c] s t ∧ { t with chans := s.chans, ev := s.ev } = s) ∧
    (s.ring.entries ≠ [] → s.ring.timeout ≠ 0 → s.ring.timeout ≤ 255 → s.ring.timer + 1 = s.ring.timeout →
      ∃ t, exec .readyTimeout s = .next t ∧ t = { s with ring := { s.ring with timer := s.ring.timer + 1 } } ∧
        t.isPending .rxReady = true) ∧
    (x.fl.asserted = false ∨ x.fl.refresh + 1 < x.cfg.p → exec (.refresh c) s = .next s) ∧
    (x.fl.held = false ∨ x.fl.holdCnt + 1 < x.cfg.h → exec (.holdExpired c) s = .next s) ∧
    (s.map.active.gives .rx c = false ∨ x.peer.present = false ∨ x.peer.mark = true ∨ x.peer.silence < 7 →
      exec (.peerAbsent c) s = .next s) ∧
    (s.ring.entries = [] ∨ s.ring.timeout = 0 ∨ s.ring.timer + 1 < s.ring.timeout ∨ s.ring.timeout ≤ s.ring.timer →
      exec .readyTimeout s = .next s)

/-! ## Sending -/

/-- The word of a TX slot, by the first of the four steps that applies: an owed ABORT while tx_enable is 1; the flow word
owed, whatever tx_enable and the remote pause hold; the head's byte, as DATA or as LAST, while tx_enable is 1, the remote
pause is GO and no ABORT is owed; IDLE. The word is kept in flight, a head becomes SENDING when its byte is chosen, and a
flow word taken is no longer owed (R10, R81, R82, R148). HWDATA is pulled low for each 0 bit of the word, the next bit first
(R1, R10). -/
def Obligations.TxSlotChoosesWord : Prop :=
  ∀ (x : Slot) (s : State), s.resetn = true → s.slot = .inSlot x → x.work = .tx → x.word = none →
    let c := x.entry.chan
    let y := s.chan c
    let chosen := fun (w : SlotWord) (k : TxKind) (sending : Bool) (fl : FlowUnit) => ∃ t, exec .txSlot s = .next t ∧
      t.slot = .inSlot { x with word := some w } ∧ t.pullsData = (decide (s.dataHeld ≠ .released) || !(wordBits w).getD x.bits.length true) ∧
      onlyChannel c s t ∧
      t.chan c = { y with tx := { y.tx with flight := some { kind := k, orphan := false }, sending := sending }
                          fl := fl } ∧
      { t with chans := s.chans, slot := s.slot } = s
    let aborts := y.cfg.tx = true ∧ y.tx.abortOwed = true
    let sends := y.cfg.tx = true ∧ y.fl.held = false ∧ y.tx.abortOwed = false
    (aborts → chosen (buildWord .ctrl 0x5A) .abort y.tx.sending y.fl) ∧
    (¬ aborts → y.fl.pauseOwed = true → chosen (buildWord .ctrl 0x3C) .pause y.tx.sending
      { y.fl with pauseOwed := false, flight := some .pause }) ∧
    (¬ aborts → y.fl.pauseOwed = false → y.fl.resumeOwed = true → chosen (buildWord .ctrl 0xC3) .resume y.tx.sending
      { y.fl with resumeOwed := false, flight := some .resume }) ∧
    (y.fl.pauseOwed = false → y.fl.resumeOwed = false → sends → ∀ h, y.tx.records.head? = some h → h.closed = true →
      (y.tx.offset + 1 < h.bytes.length →
        chosen (buildWord .data (h.bytes.getD y.tx.offset 0)) (.data y.tx.offset) true y.fl) ∧
      (y.tx.offset + 1 = h.bytes.length →
        chosen (buildWord .last (h.bytes.getD y.tx.offset 0)) (.last y.tx.offset) true y.fl)) ∧
    (¬ aborts → y.fl.pauseOwed = false → y.fl.resumeOwed = false →
      (¬ sends ∨ ∀ h, y.tx.records.head? = some h → h.closed = false) → chosen 0 .idle y.tx.sending y.fl)

/-- A matched echo, the slot having ended: DATA moves the offset by 1; LAST commits the head and clears r and the collision
counter; ABORT is no longer owed, and with drop_after_abort the head is dropped with TX_DROPPED, reason RESTARTS; IDLE
changes nothing; a flow word is sent. Of a head that FLUSH removed, DATA owes an ABORT and LAST does nothing. Where the host
cleared tx_enable during the slot, a head that is still SENDING then makes an uncounted restart. The next slot begins, or
the frame stands with every slot worked (R8, R11, R72, R83, R84, R85, R93, R149). -/
def Obligations.MatchedEchoIsApplied : Prop :=
  ∀ (x : Slot) (w : SlotWord) (f : TxFlight) (s : State), s.resetn = true → s.slot = .inSlot x → x.work = .tx →
    x.word = some w → x.bits = wordBits w →
    let c := x.entry.chan
    let y := s.chan c
    y.tx.flight = some f → (y.tx.testDue = false ∨ y.cfg.tx = false) →
    ∃ t, exec .echoResult s = .next t ∧ onlyChannel c s t ∧
      t.slot = (if x.number + 1 < s.map.active.slots
        then .inSlot { number := x.number + 1, entry := s.map.active.entry (x.number + 1)
                       work := (s.map.active.entry (x.number + 1)).mode, word := none, bits := [] }
        else .frameDone) ∧
      (t.chan c).fl = { y.fl with flight := none } ∧
      (t.chan c).cfg = y.cfg ∧ (t.chan c).rx = y.rx ∧ (t.chan c).sticky = y.sticky ∧ (t.chan c).peer = y.peer ∧
      (t.chan c).held = y.held ∧
      { t with chans := s.chans, slot := s.slot, ev := s.ev } = s ∧
      let landed := { y.tx with flight := none }
      let tested := fun u : TxUnit =>
        if y.tx.testDue && u.sending then { u with testDue := false, abortOwed := true, sending := false, offset := 0 }
        else { u with testDue := false }
      (∀ o, f.kind = .data o → t.ev = s.ev ∧ (t.chan c).tx = tested
        (if f.orphan then { landed with abortOwed := true } else { landed with offset := y.tx.offset + 1 })) ∧
      (∀ o, f.kind = .last o → t.ev = s.ev ∧ (t.chan c).tx = tested
        (if f.orphan then landed
          else { landed with records := y.tx.records.tail, sending := false, offset := 0, r := 0, coll := 0 })) ∧
      (f.kind = .abort → y.tx.dropAfter = false →
        t.ev = s.ev ∧ (t.chan c).tx = tested { landed with abortOwed := false }) ∧
      (f.kind = .abort → y.tx.dropAfter = true → droppedOnly c .restarts s t ∧
        (t.chan c).tx = tested { landed with records := y.tx.records.tail, sending := false, offset := 0
                                             abortOwed := false, dropAfter := false, r := 0, lastDrop := .restarts }) ∧
      (f.kind = .idle ∨ f.kind = .pause ∨ f.kind = .resume → t.ev = s.ev ∧ (t.chan c).tx = tested landed)

/-- A collision: the counter rises by 1; a message word of the head makes a counted restart, with drop_after_abort once r
passes restart_limit, and one whose head FLUSH removed only owes its ABORT; at collision_limit the transmitter shuts down
with TX_SHUTDOWN and the counter at 0. A flow word is owed again while it matches the local pause (R11, R72, R87, R88,
R149). -/
def Obligations.CollisionClimbsTheLadder : Prop :=
  ∀ (x : Slot) (w : SlotWord) (f : TxFlight) (s : State), s.resetn = true → s.slot = .inSlot x → x.work = .tx →
    x.word = some w → x.bits.length = 11 → x.bits ≠ wordBits w →
    let c := x.entry.chan
    let y := s.chan c
    y.tx.flight = some f → y.tx.testDue = false → y.cfg.tx = true →
    ∃ t, exec .echoResult s = .next t ∧ onlyChannel c s t ∧
      let z := t.chan c
      let message := match f.kind with | .data _ => true | .last _ => true | _ => false
      let counted := message && !f.orphan
      let stops := y.cfg.collLimit ≤ y.tx.coll + 1
      z.tx = { y.tx with
        flight := none
        coll := if stops then 0 else y.tx.coll + 1
        r := if counted then y.tx.r + 1 else y.tx.r
        abortOwed := y.tx.abortOwed || message
        sending := y.tx.sending && !counted
        offset := if counted then 0 else y.tx.offset
        dropAfter := y.tx.dropAfter || (counted && decide (y.cfg.restartLimit < y.tx.r + 1)) } ∧
      z.cfg = { y.cfg with tx := !decide stops } ∧
      raisedOnly (if stops then [.txShutdown c] else []) s t ∧
      z.fl = { y.fl with
        flight := none
        pauseOwed := y.fl.pauseOwed || (decide (y.fl.flight = some .pause) && y.fl.asserted)
        resumeOwed := y.fl.resumeOwed || (decide (y.fl.flight = some .resume) && !y.fl.asserted) } ∧
      z.rx = y.rx ∧ z.peer = y.peer ∧ z.sticky = y.sticky ∧ z.held = y.held ∧
      { t with chans := s.chans, slot := s.slot, ev := s.ev } = s

/-- A mismatch while tx_enable is 0 sets STRAY_ECHO and is no collision: r, the collision counter, the offset and an owed
ABORT stay, but where the host cleared tx_enable during the slot a head that is SENDING then makes an uncounted restart
(R86, R90, R93). A flow word is owed again while it matches the local pause (R149). -/
def Obligations.StrayEchoIsNoCollision : Prop :=
  ∀ (x : Slot) (w : SlotWord) (f : TxFlight) (s : State), s.resetn = true → s.slot = .inSlot x → x.work = .tx →
    x.word = some w → x.bits.length = 11 → x.bits ≠ wordBits w →
    let c := x.entry.chan
    let y := s.chan c
    y.tx.flight = some f → y.cfg.tx = false →
    ∃ t, exec .echoResult s = .next t ∧ onlyChannel c s t ∧
      let z := t.chan c
      let restarts := y.tx.testDue && y.tx.sending
      z.sticky = { y.sticky with strayEcho := true } ∧ z.cfg = y.cfg ∧ z.rx = y.rx ∧ z.peer = y.peer ∧ z.held = y.held ∧
      z.tx = { y.tx with
        flight := none
        testDue := false
        abortOwed := y.tx.abortOwed || restarts
        sending := y.tx.sending && !restarts
        offset := if restarts then 0 else y.tx.offset } ∧
      z.fl = { y.fl with
        flight := none
        pauseOwed := y.fl.pauseOwed || (decide (y.fl.flight = some .pause) && y.fl.asserted)
        resumeOwed := y.fl.resumeOwed || (decide (y.fl.flight = some .resume) && !y.fl.asserted) } ∧
      { t with chans := s.chans, slot := s.slot } = s

/-- A byte written to TXDATA(c) that is accepted: there is a free byte, and an open record or fewer than 8 records. It is
stored at the end of the open record, or starts a new one that takes the poisoned flag the unit holds alone; with the LAST
mark a sound record is closed, and a poisoned one is removed with TX_DROPPED, reason OVERFLOW (R77, R78, R80). -/
def Obligations.TxdataByteAccepted : Prop :=
  ∀ (c : Chan) (w : Word) (s : State), s.resetn = true →
    let x := s.chan c
    let b : Byte := w.extractLsb' 0 8
    let last := w.getLsbD 8
    (x.tx.records.map fun r => r.bytes.length).sum < 512 →
    (∀ (old : List TxRecord) (r : TxRecord), x.tx.records = old ++ [r] → r.closed = false →
      ∃ t, exec (.txdata c w) s = .next t ∧ onlyChannel c s t ∧
        { t with chans := s.chans, ev := s.ev } = s ∧ { t.chan c with tx := x.tx } = x ∧
        (last = false → (t.chan c).tx = { x.tx with records := old ++ [{ r with bytes := r.bytes ++ [b] }] } ∧
          t.ev = s.ev) ∧
        (last = true → r.poisoned = false →
          (t.chan c).tx = { x.tx with records := old ++ [{ r with bytes := r.bytes ++ [b], closed := true }] } ∧
          t.ev = s.ev) ∧
        (last = true → r.poisoned = true → (t.chan c).tx = { x.tx with records := old, lastDrop := .overflow } ∧
          droppedOnly c .overflow s t)) ∧
    ((∀ r, x.tx.records.getLast? = some r → r.closed = true) → x.tx.records.length < 8 → ∃ t, exec (.txdata c w) s = .next t ∧ onlyChannel c s t ∧
      { t with chans := s.chans, ev := s.ev } = s ∧ { t.chan c with tx := x.tx } = x ∧
      (last = false → (t.chan c).tx = { x.tx with
        records := x.tx.records ++ [{ bytes := [b], closed := false, poisoned := x.tx.lone }], lone := false } ∧
        t.ev = s.ev) ∧
      (last = true → x.tx.lone = false → (t.chan c).tx = { x.tx with
        records := x.tx.records ++ [{ bytes := [b], closed := true, poisoned := false }] } ∧ t.ev = s.ev) ∧
      (last = true → x.tx.lone = true → (t.chan c).tx = { x.tx with lone := false, lastDrop := .overflow } ∧
        droppedOnly c .overflow s t))

/-- A byte written to TXDATA(c) that is refused, for want of a free byte or of a record, sets TX_OVERFLOW and stores
nothing: an open record is poisoned, and without one the unit holds the poisoned flag alone; with the LAST mark the message
is lost with TX_DROPPED, reason OVERFLOW (R79, R80). -/
def Obligations.TxdataByteRefused : Prop :=
  ∀ (c : Chan) (w : Word) (s : State), s.resetn = true →
    let x := s.chan c
    let last := w.getLsbD 8
    let isOpen := match x.tx.records.getLast? with | some r => !r.closed | none => false
    (512 ≤ (x.tx.records.map fun r => r.bytes.length).sum ∨ (isOpen = false ∧ 8 ≤ x.tx.records.length)) →
    ∃ t, exec (.txdata c w) s = .next t ∧ onlyChannel c s t ∧
      { t with chans := s.chans, ev := s.ev } = s ∧
      { t.chan c with tx := x.tx, sticky := x.sticky } = x ∧ (t.chan c).sticky = { x.sticky with txOverflow := true } ∧
      { (t.chan c).tx with records := x.tx.records, lone := x.tx.lone, lastDrop := x.tx.lastDrop } = x.tx ∧
      (last = true → droppedOnly c .overflow s t ∧ (t.chan c).tx.lastDrop = .overflow ∧
        (t.chan c).tx.lone = (x.tx.lone && isOpen)) ∧
      (last = false → t.ev = s.ev ∧ (t.chan c).tx.lastDrop = x.tx.lastDrop) ∧
      (isOpen = false → (t.chan c).tx.records = x.tx.records ∧
        (last = false → (t.chan c).tx.lone = true)) ∧
      (∀ (old : List TxRecord) (r : TxRecord), x.tx.records = old ++ [r] → r.closed = false →
        (t.chan c).tx.records = if last then old else old ++ [{ r with poisoned := true }])

/-! ## Receiving -/

/-- A word that ends an RX slot of channel c and is not for its receive unit: SILENT changes nothing; IDLE only marks the
frame not silent; an unknown control code also sets UNKNOWN_CTRL; PAUSE and RESUME are honoured while fc_enable is 1,
whatever rx_enable holds, and ignored while it is 0. The next slot begins (R8, R12, R13, R73, R151, R152). -/
def Obligations.RxSlotMarksAndFlowWords : Prop :=
  ∀ (x : Slot) (s : State), s.resetn = true → s.slot = .inSlot x → x.work = .rx → x.bits.length = 11 →
    let c := x.entry.chan
    let y := s.chan c
    let marked := { y with peer := { y.peer with mark := true } }
    let k := classify (wordOfBits x.bits)
    ∃ t, exec .rxWord s = .next t ∧
      t.slot = (if x.number + 1 < s.map.active.slots
        then .inSlot { number := x.number + 1, entry := s.map.active.entry (x.number + 1)
                       work := (s.map.active.entry (x.number + 1)).mode, word := none, bits := [] }
        else .frameDone) ∧
      (k = .silent → { t with slot := s.slot } = s) ∧
      (k = .idle ∨ k = .unknownCtrl ∨ k = .pause ∨ k = .resume →
        onlyChannel c s t ∧ { t with slot := s.slot, chans := s.chans } = s) ∧
      (k = .idle → t.chan c = marked) ∧
      (k = .unknownCtrl → t.chan c = { marked with sticky := { y.sticky with unknownCtrl := true } }) ∧
      (k = .pause → t.chan c = if y.cfg.fc then { marked with fl := { y.fl with held := true, holdCnt := 0 } } else marked) ∧
      (k = .resume → t.chan c = if y.cfg.fc && y.fl.held
        then { marked with fl := { y.fl with held := false, holdCnt := 0 } } else marked)

/-- Words of a message while rx_enable is 0, and corrupt words: with rx_enable 0 a DATA, LAST, ABORT or corrupt word only
marks the frame not silent; with rx_enable 1 a DATA byte in TRUNCATING, OVERRUN and STARVED is discarded; a corrupt word
damages the message in progress, or sets PARITY in IDLE; an ABORT in STARVED returns to IDLE and in IDLE changes nothing; an
ABORT in OPEN, TRUNCATING or OVERRUN discards the message, with its reservation returned and neither a descriptor nor a
sequence value used, and the flow units follow the blocks it freed (R109, R112, R113, R114, R117, R142, R143, R145, R146).
-/
def Obligations.RxSlotIgnoredCorruptAndAbort : Prop :=
  ∀ (x : Slot) (s : State), s.resetn = true → s.slot = .inSlot x → x.work = .rx → x.bits.length = 11 →
    let c := x.entry.chan
    let y := s.chan c
    let marked := { y with peer := { y.peer with mark := true } }
    let k := classify (wordOfBits x.bits)
    ∃ t, exec .rxWord s = .next t ∧
      (y.cfg.rx = false → k ≠ .silent → k ≠ .idle → k ≠ .pause → k ≠ .resume → k ≠ .unknownCtrl →
        t.chan c = marked ∧ onlyChannel c s t ∧ { t with slot := s.slot, chans := s.chans } = s) ∧
      (∀ b, k = .data b → y.cfg.rx = true → y.rx.st ≠ .idle → y.rx.st ≠ .opened →
        t.chan c = { marked with rx := { y.rx with seen := true } } ∧ onlyChannel c s t ∧
        { t with slot := s.slot, chans := s.chans } = s) ∧
      (y.cfg.rx = true → k = .corrupt → y.rx.st ≠ .idle →
        t.chan c = { marked with rx := { y.rx with damaged := true } } ∧ onlyChannel c s t ∧
        { t with slot := s.slot, chans := s.chans } = s) ∧
      (y.cfg.rx = true → k = .corrupt → y.rx.st = .idle →
        t.chan c = { marked with sticky := { y.sticky with parity := true } } ∧ onlyChannel c s t ∧
        { t with slot := s.slot, chans := s.chans } = s) ∧
      (y.cfg.rx = true → k = .abort → y.rx.st = .idle → t.chan c = marked ∧ onlyChannel c s t ∧
        { t with slot := s.slot, chans := s.chans } = s) ∧
      (y.cfg.rx = true → k = .abort → y.rx.st ≠ .idle →
        (t.chan c).rx = { st := .idle, first := none, cur := none, fill := 0, len := 0, damaged := false, gap := 0,
                          seen := false, seq := y.rx.seq } ∧
        t.ring = { s.ring with
          reserved := if y.rx.st = .starved then s.ring.reserved else s.ring.reserved - 1 } ∧
        (y.rx.st = .starved → t.pool = s.pool ∧ (t.chan c).held = y.held ∧ (t.chan c).fl = y.fl ∧ onlyChannel c s t) ∧
        (y.rx.st ≠ .starved → t.pool.free = s.pool.free ++ s.openChain c ∧
          (t.chan c).held = y.held - (s.openChain c).length ∧
          (∀ b, t.pool.links.get b = if b ∈ s.openChain c then none else s.pool.links.get b) ∧
          { t.pool with free := s.pool.free, links := s.pool.links, low := s.pool.low } = s.pool) ∧
        { t.chan c with rx := y.rx, fl := y.fl, held := y.held } = marked ∧ flowsFollow [] s t ∧
        (∀ d, d ≠ c → { t.chan d with fl := (s.chan d).fl } = s.chan d) ∧
        { t with slot := s.slot, chans := s.chans, pool := s.pool, ring := s.ring } = s)

/-- A DATA word that begins a message in IDLE: with a place left in the ring a reservation is taken and, the pool granting
it, the head of the free list becomes the first block, with the byte at its first position and nothing else of the pool
changed; without a place the message starves: STARVED and RX_STARVED(c), a sequence value consumed, nothing stored; with a
place but no block granted the message is OVERRUN and keeps its reservation. The flow units follow a granted block: the
QUOTA cause, the POOL causes, and a local-pause transition with its flow word (R102, R110, R111, R128, R142, R143, R145,
R146). -/
def Obligations.FirstByteOpensOrStarves : Prop :=
  ∀ (x : Slot) (b : Byte) (s : State), s.resetn = true → s.slot = .inSlot x → x.work = .rx → x.bits.length = 11 →
    classify (wordOfBits x.bits) = .data b →
    let c := x.entry.chan
    let y := s.chan c
    let marked := { y with peer := { y.peer with mark := true } }
    y.cfg.rx = true → y.rx.st = .idle → y.rx.len = 0 → y.rx.cur = none → y.rx.first = none → 1 ≤ y.cfg.maxLen →
    ∃ t, exec .rxWord s = .next t ∧
      (32 ≤ s.ring.entries.length + s.ring.reserved →
        (t.chan c).rx = { y.rx with st := .starved, seen := true, seq := y.rx.seq + 1 } ∧
        (t.chan c).sticky = { y.sticky with starved := true } ∧ raisedOnly [.rxStarved c] s t ∧
        onlyChannel c s t ∧ { t with slot := s.slot, chans := s.chans, ev := s.ev } = s ∧
        { t.chan c with rx := y.rx, sticky := y.sticky } = marked) ∧
      (s.ring.entries.length + s.ring.reserved < 32 → y.held < y.cfg.quota → ∀ k rest, s.pool.free = k :: rest →
        (t.chan c).rx = { y.rx with st := .opened, first := some k, cur := some k, fill := 1, len := 1, seen := true } ∧
        (t.chan c).held = y.held + 1 ∧ t.pool.free = rest ∧ t.pool.links.get k = none ∧
        (∀ m, m ≠ k → t.pool.links.get m = s.pool.links.get m) ∧
        t.ring = { s.ring with reserved := s.ring.reserved + 1 } ∧
        t.pool.mem = Memory.write s.pool.mem (32 * k.val) b ∧
        { t.pool with free := s.pool.free, links := s.pool.links, low := s.pool.low, mem := s.pool.mem } = s.pool ∧
        { t.chan c with rx := y.rx, fl := y.fl, held := y.held } = marked ∧ flowsFollow [] s t ∧
        (∀ d, d ≠ c → { t.chan d with fl := (s.chan d).fl } = s.chan d) ∧
        { t with slot := s.slot, chans := s.chans, pool := s.pool, ring := s.ring } = s) ∧
      (s.ring.entries.length + s.ring.reserved < 32 → (y.cfg.quota ≤ y.held ∨ s.pool.free = []) →
        t.chan c = { marked with rx := { y.rx with st := .overrun, fill := 0, seen := true } } ∧ onlyChannel c s t ∧
        { t with slot := s.slot, chans := s.chans, ring := { t.ring with reserved := s.ring.reserved } } = s ∧
        t.ring.reserved = s.ring.reserved + 1)

/-- A DATA byte of an OPEN message, by the first case that applies: at max_length the message is TRUNCATING and the byte
discarded; with room in the current block the byte is written at the fill position; at a full block a refused grant makes
the message OVERRUN, with its chain freed and its reservation kept, and a granted one links the new block behind the current
one and stores the byte there; held(c) moves with the blocks granted and freed alone, and POOLCFG stays. The flow units
follow blocks granted and freed: the QUOTA cause, the POOL causes, and a local-pause transition with its flow word (R102,
R103, R111, R112, R142, R143, R145, R146). -/
def Obligations.NextByteIsStored : Prop :=
  ∀ (x : Slot) (b : Byte) (k : BlockNo) (s : State), s.resetn = true → s.slot = .inSlot x → x.work = .rx →
    x.bits.length = 11 → classify (wordOfBits x.bits) = .data b →
    let c := x.entry.chan
    let y := s.chan c
    let marked := { y with peer := { y.peer with mark := true } }
    y.cfg.rx = true → y.rx.st = .opened → y.rx.cur = some k →
    ∃ t, exec .rxWord s = .next t ∧ { t with slot := s.slot, chans := s.chans, pool := s.pool } = s ∧
      { t.chan c with rx := y.rx, fl := y.fl, held := y.held } = marked ∧ flowsFollow [] s t ∧
      (∀ d, d ≠ c → { t.chan d with fl := (s.chan d).fl } = s.chan d) ∧
      (y.cfg.maxLen ≤ y.rx.len → (t.chan c).rx = { y.rx with st := .truncating, seen := true } ∧ t.pool = s.pool ∧ onlyChannel c s t) ∧
      (y.rx.len < y.cfg.maxLen → y.rx.fill < 32 →
        (t.chan c).rx = { y.rx with fill := y.rx.fill + 1, len := y.rx.len + 1, seen := true } ∧
        t.pool = { s.pool with mem := Memory.write s.pool.mem (32 * k.val + y.rx.fill) b } ∧ onlyChannel c s t) ∧
      (y.cfg.maxLen ≤ y.rx.len ∨ y.rx.fill < 32 → (t.chan c).held = y.held ∧ (t.chan c).fl = y.fl) ∧
      (y.rx.len < y.cfg.maxLen → y.rx.fill = 32 → (y.cfg.quota ≤ y.held ∨ s.pool.free = []) →
        (t.chan c).rx = { y.rx with st := .overrun, first := none, cur := none, fill := 0, len := 0, seen := true } ∧
        t.pool.free = s.pool.free ++ s.openChain c ∧
        { t.pool with free := s.pool.free, links := s.pool.links, low := s.pool.low } = s.pool ∧
        (∀ m, t.pool.links.get m = if m ∈ s.openChain c then none else s.pool.links.get m) ∧
        (t.chan c).held = y.held - (s.openChain c).length) ∧
      (y.rx.len < y.cfg.maxLen → y.rx.fill = 32 → y.held < y.cfg.quota → y.rx.first ≠ none →
        ∀ m rest, s.pool.free = m :: rest → m ≠ k →
        (t.chan c).rx = { y.rx with cur := some m, fill := 1, len := y.rx.len + 1, seen := true } ∧
        (t.chan c).held = y.held + 1 ∧ t.pool.free = rest ∧ t.pool.links.get k = some m ∧ t.pool.links.get m = none ∧
        (∀ i, i ≠ k → i ≠ m → t.pool.links.get i = s.pool.links.get i) ∧
        t.pool.mem = Memory.write s.pool.mem (32 * m.val) b ∧
        { t.pool with free := s.pool.free, links := s.pool.links, low := s.pool.low, mem := s.pool.mem } = s.pool)

/-- A LAST word ends its message. In OPEN, with room in the current block, its byte is stored and the descriptor is OK; in
TRUNCATING and OVERRUN its byte is discarded and the descriptor has that status; in STARVED there is none. The descriptor
joins the tail of the ring, stamped with the frame counter, the reservation becomes the entry, the ready timer is 0, and the
receive unit is IDLE with the next sequence value (R108, R112, R115, R116, R118, R129). From every receive state, IDLE
included, a LAST word leaves what a DATA word of its byte leaves, with the message then ended. -/
def Obligations.LastWordEndsTheMessage : Prop :=
  (∀ (x : Slot) (b : Byte) (s : State), s.resetn = true → s.slot = .inSlot x → x.work = .rx → x.bits.length = 11 →
     classify (wordOfBits x.bits) = .last b →
     let c := x.entry.chan
     let y := s.chan c
     y.cfg.rx = true → y.rx.st ≠ .idle →
     (y.rx.st = .opened → y.rx.len < y.cfg.maxLen ∧ y.rx.fill < 32 ∧ y.rx.cur ≠ none) →
     ∃ t, exec .rxWord s = .next t ∧ onlyChannel c s t ∧
       { t with slot := s.slot, chans := s.chans, ring := s.ring, pool := s.pool } = s ∧
       t.chan c = { y with
         peer := { y.peer with mark := true }
         rx := { st := .idle, first := none, cur := none, fill := 0, len := 0, damaged := false, gap := 0, seen := false
                 seq := if y.rx.st = .starved then y.rx.seq else y.rx.seq + 1 } } ∧
       (y.rx.st = .starved → t.ring = s.ring) ∧
       (y.rx.st ≠ .starved → t.ring = { s.ring with
         entries := s.ring.entries ++ [{
           chan := c, seq := y.rx.seq, damaged := y.rx.damaged, stamp := s.tim.frameCnt
           status := if y.rx.st = .opened then .ok else if y.rx.st = .truncating then .truncated else .overrun
           length := if y.rx.st = .opened then y.rx.len + 1 else if y.rx.st = .truncating then y.rx.len else 0
           first := if y.rx.st = .overrun then none else y.rx.first }]
         reserved := s.ring.reserved - 1
         timer := 0 }) ∧
       (y.rx.st ≠ .opened → t.pool = s.pool) ∧
       (∀ k, y.rx.st = .opened → y.rx.cur = some k →
         t.pool = { s.pool with mem := Memory.write s.pool.mem (32 * k.val + y.rx.fill) b })) ∧
  (∀ (x : Slot) (b : Byte) (s : State), s.resetn = true → s.slot = .inSlot x → x.work = .rx → x.bits.length = 11 →
     classify (wordOfBits x.bits) = .last b →
     let c := x.entry.chan
     (s.chan c).cfg.rx = true →
     ∃ u, exec .rxWord { s with slot := .inSlot { x with bits := wordBits (buildWord .data b) } } = .next u ∧
     ∃ t, exec .rxWord s = .next t ∧ onlyChannel c u t ∧ { t with chans := u.chans, ring := u.ring } = u ∧
       let y := u.chan c
       t.chan c = { y with rx := { st := .idle, first := none, cur := none, fill := 0, len := 0, damaged := false, gap := 0
                                   seen := false, seq := if y.rx.st = .starved then y.rx.seq else y.rx.seq + 1 } } ∧
       t.ring = (if y.rx.st = .starved then u.ring else { u.ring with
         entries := u.ring.entries ++ [endedAs c .ok u], reserved := u.ring.reserved - 1, timer := 0 }))

/-! ## The ring and the pool -/

/-- A read of RXDATA, by the first case that applies: NO_MESSAGE with an empty ring, PAST_END at the head's length,
otherwise the byte at the read offset, found along the head's chain at block offset/32 and position offset mod 32, with bit
8 at the last byte, the offset then rising by 1; every other bit is 0. A write to RXOFFSET is rejected with CFG_REJECT while
the ring is empty or when the value is above the head's length; otherwise the offset becomes the whole word written, and
RXOFFSET reads it back (R132, R133, R179). -/
def Obligations.RxdataReadDeliversBytes : Prop :=
  (∀ (s : State), s.resetn = true →
     (s.ring.entries = [] → exec .rxdataRead s = .next { s with readData := 0x8000 }) ∧
     (∀ (d : Descriptor) (rest : List Descriptor), s.ring.entries = d :: rest →
       (s.ring.readOff = d.length → exec .rxdataRead s = .next { s with readData := 0x4000 }) ∧
       (∀ b, s.ring.readOff ≠ d.length → (s.pool.chain d.first)[s.ring.readOff / 32]? = some b →
         ∃ t, exec .rxdataRead s = .next t ∧
           t.readData.extractLsb' 0 8 = Memory.read s.pool.mem (32 * b.val + s.ring.readOff % 32) ∧
           t.readData.getLsbD 8 = decide (s.ring.readOff + 1 = d.length) ∧ t.readData.extractLsb' 9 7 = 0 ∧
           t.ring.readOff = s.ring.readOff + 1 ∧
           { t with readData := s.readData, ring := { t.ring with readOff := s.ring.readOff } } = s))) ∧
  (∀ (w : Word) (s : State), s.resetn = true →
     (s.ring.entries = [] → exec (.rxoffsetWrite w) s = .next { s with cfgReject := true }) ∧
     (∀ (d : Descriptor) (rest : List Descriptor), s.ring.entries = d :: rest →
       (d.length < w.toNat → exec (.rxoffsetWrite w) s = .next { s with cfgReject := true }) ∧
       (w.toNat ≤ d.length → ∃ t, exec (.rxoffsetWrite w) s = .next t ∧
         t = { s with ring := { s.ring with readOff := w.toNat } } ∧ readRegister t 0x11 = w)))

/-- RELEASE is refused with EMPTY while the ring is empty and changes CMDSTAT alone; otherwise the head leaves the ring, its
chain joins the tail of the free list in chain order with no link left, the bytes and POOLCFG kept, held of its channel
falls by its blocks, the read offset and the ready timer become 0, and CMDSTAT shows DONE. The flow units follow: the QUOTA
cause of its channel, the POOL causes, and a local-pause transition with its flow word (R103, R134, R142, R143, R145, R146).
-/
def Obligations.ReleaseFreesTheHead : Prop :=
  ∀ (s : State), s.resetn = true →
    (s.ring.entries = [] → exec .release s = .next { s with
      cmd := { result := .refused, reason := .empty, code := 0x04 } }) ∧
    (∀ (d : Descriptor) (rest : List Descriptor), s.ring.entries = d :: rest → ∃ t, exec .release s = .next t ∧
      t.cmd = { result := .done, reason := .none, code := 0x04 } ∧
      t.ring = { s.ring with entries := rest, readOff := 0, timer := 0 } ∧
      t.pool.free = s.pool.free ++ s.pool.chain d.first ∧
      (∀ b, t.pool.links.get b = if b ∈ s.pool.chain d.first then none else s.pool.links.get b) ∧
      { t.pool with free := s.pool.free, links := s.pool.links, low := s.pool.low } = s.pool ∧
      (t.chan d.chan).held = (s.chan d.chan).held - (s.pool.chain d.first).length ∧
      (∀ c, let x := s.chan c; let y := t.chan c
        { y with fl := x.fl, held := x.held } = x ∧ (c ≠ d.chan → y.held = x.held)) ∧ flowsFollow [] s t ∧
      { t with cmd := s.cmd, ring := s.ring, pool := s.pool, chans := s.chans } = s)

/-- Writes to RINGCFG and POOLCFG are checked whole: a field out of range, or a sum of reserve and hysteresis above 128,
changes CFG_REJECT alone; an accepted one stores both fields, which read back, and RX_READY or the pool-low condition
follows them, the POOL cause of every channel with it, and a local pause that this moves owes its flow word (R105, R106,
R136, R138, R143, R145, R146). -/
def Obligations.RingcfgAndPoolcfgAreCheckedWhole : Prop :=
  ∀ (w : Word) (s : State), s.resetn = true →
    let threshold := (w.extractLsb' 0 6).toNat
    let timeout := (w.extractLsb' 8 8).toNat
    let reserve := (w.extractLsb' 0 7).toNat
    let hyst := (w.extractLsb' 8 6).toNat
    (threshold = 0 ∨ 32 < threshold → exec (.ringcfgWrite w) s = .next { s with cfgReject := true }) ∧
    (threshold ≠ 0 → threshold ≤ 32 → ∃ t, exec (.ringcfgWrite w) s = .next t ∧
      t = { s with ring := { s.ring with threshold := threshold, timeout := timeout } } ∧
      readRegister t 0x0A = w &&& 0xFF3F ∧
      (t.isPending .rxReady = true ↔ threshold ≤ s.ring.entries.length ∨
        (1 ≤ s.ring.entries.length ∧ timeout ≠ 0 ∧ timeout ≤ s.ring.timer))) ∧
    (hyst = 0 ∨ 32 < hyst ∨ 128 < reserve + hyst → exec (.poolcfgWrite w) s = .next { s with cfgReject := true }) ∧
    (hyst ≠ 0 → hyst ≤ 32 → reserve + hyst ≤ 128 → ∃ t, exec (.poolcfgWrite w) s = .next t ∧
      t.pool = { s.pool with reserve := reserve, hyst := hyst, low :=
        if s.pool.free.length ≤ reserve then true
        else if reserve + hyst ≤ s.pool.free.length then false else s.pool.low } ∧
      readRegister t 0x08 = w &&& 0x3F7F ∧
      (t.pool.low ≠ s.pool.low → ∀ c, (t.chan c).fl.pool = t.pool.low) ∧ flowsFollow [] s t ∧
      (t.pool.low = s.pool.low → t.chans = s.chans) ∧
      (∀ c, { t.chan c with fl := (s.chan c).fl } = s.chan c) ∧ { t with pool := s.pool, chans := s.chans } = s)

/-! ## Events -/

/-- A read of CAUSE returns the cause word and acknowledges the latched source it names, and no other. A word that names a
source gives the first in presentation order that is pending and enabled: its level, its code, its channel and its detail;
with none it is 0. The details of the other sources are kept. A conditional source named stays pending; it is pending while
its condition holds (R96, R138, R159, R161, R162, R163, R165). -/
def Obligations.CauseReadAcknowledgesTheFirst : Prop :=
  ∀ (s : State), s.resetn = true →
    let order : List Source :=
      [.masterYielded, .syncLost, .lineDown, .slip, .tookOver, .masterActive, .locked, .lineUp] ++
      (List.finRange 8).flatMap (fun c => [.txShutdown c, .txDropped c, .rxStarved c]) ++
      [.rxReady, .commitRefused, .commitDone] ++ (List.finRange 8).map .txSpace ++
      (List.finRange 8).flatMap (fun c => [.holdExpired c, .peerChange c])
    let levelCodeChannel : Source → Nat × Nat × Nat := fun x => match x with
      | .masterYielded => (1, 0, 0) | .syncLost => (1, 1, 0) | .lineDown => (1, 2, 0) | .slip => (1, 3, 0)
      | .tookOver => (1, 4, 0) | .masterActive => (1, 5, 0) | .locked => (1, 6, 0) | .lineUp => (1, 7, 0)
      | .txShutdown c => (2, 0, c.val) | .txDropped c => (2, 1, c.val) | .rxStarved c => (2, 2, c.val)
      | .rxReady => (3, 0, 0) | .commitRefused => (4, 0, 0) | .commitDone => (4, 1, 0) | .txSpace c => (5, 0, c.val)
      | .holdExpired c => (6, 0, c.val) | .peerChange c => (6, 1, c.val)
    let detail : Source → Nat := fun x => match x with
      | .txDropped c => (match s.ev.dropDetail.get c with | .none => 0 | .restarts => 1 | .overflow => 2)
      | .commitRefused => (match s.ev.refusedDetail with
        | .none => 0 | .busy => 1 | .nothingPending => 2 | .empty => 3 | .notRunning => 4 | .unknown => 5
        | .lengthLocked => 6 | .slotBeyondFrame => 7 | .noReturnPath => 8)
      | _ => 0
    let conditional : Source → Bool := fun x => match x with | .rxReady => true | .txSpace _ => true | _ => false
    let live := fun x : Source => s.isPending x = true ∧ s.isEnabled x = true
    allSources = order ∧ order.length = 59 ∧
    (s.isPending .rxReady = true ↔ s.ring.threshold ≤ s.ring.entries.length ∨
      (1 ≤ s.ring.entries.length ∧ s.ring.timeout ≠ 0 ∧ s.ring.timeout ≤ s.ring.timer)) ∧
    (∀ c, s.isPending (.txSpace c) = true ↔ (s.chan c).tx.records.length < 8 ∧
      (s.chan c).cfg.spaceLevel ≤ 512 - ((s.chan c).tx.records.map fun r => r.bytes.length).sum) ∧
    ((∀ x ∈ order, ¬ live x) → exec .causeRead s = .next { s with readData := 0 }) ∧
    (∀ i : Fin 59, let x := order.getD i.val .locked
      live x → (∀ j : Fin 59, j < i → ¬ live (order.getD j.val .locked)) →
      ∃ t, exec .causeRead s = .next t ∧
        (t.readData.extractLsb' 0 3).toNat = (levelCodeChannel x).1 ∧
        (t.readData.extractLsb' 4 3).toNat = (levelCodeChannel x).2.1 ∧
        (t.readData.extractLsb' 8 3).toNat = (levelCodeChannel x).2.2 ∧
        (t.readData.extractLsb' 12 4).toNat = detail x ∧ t.readData &&& 0x0888 = 0 ∧
        t.isPending x = conditional x ∧ (∀ y ∈ order, y ≠ x → t.isPending y = s.isPending y) ∧
        (conditional x = true → t.ev = s.ev) ∧
        { t.ev with latched := s.ev.latched, dropDetail := s.ev.dropDetail, refusedDetail := s.ev.refusedDetail } = s.ev ∧
        (∀ c, x ≠ .txDropped c → t.ev.dropDetail.get c = s.ev.dropDetail.get c) ∧
        (x ≠ .commitRefused → t.ev.refusedDetail = s.ev.refusedDetail) ∧
        { t with readData := s.readData, ev := s.ev } = s)

/-- A write to CHSTICKY clears each sticky flag of the selected channel whose bit is 1 and leaves the others; CHSTICKY then
reads the flags left, PARITY, UNKNOWN_CTRL, TX_OVERFLOW, STRAY_ECHO and STARVED in bits 0 to 4 (R75, R76, R179). A write to
CMDSTAT clears CFG_REJECT with bit 2 and MAP_BUSY with bit 3 and leaves the record (R178). -/
def Obligations.StickyFlagsAreWrittenOneToClear : Prop :=
  ∀ (w : Word) (s : State), s.resetn = true →
    let x := (s.chan s.chsel).sticky
    (∃ t, exec (.chstickyWrite w) s = .next t ∧ onlyChannel s.chsel s t ∧ { t with chans := s.chans } = s ∧
      { t.chan s.chsel with sticky := (s.chan s.chsel).sticky } = s.chan s.chsel ∧
      (t.chan s.chsel).sticky = { parity := x.parity && !w.getLsbD 0, unknownCtrl := x.unknownCtrl && !w.getLsbD 1
                                  txOverflow := x.txOverflow && !w.getLsbD 2, strayEcho := x.strayEcho && !w.getLsbD 3
                                  starved := x.starved && !w.getLsbD 4 } ∧
      readRegister t 0x17 = readRegister s 0x17 &&& ~~~w) ∧
    (let bit := (readRegister s 0x17).getLsbD
     bit 0 = x.parity ∧ bit 1 = x.unknownCtrl ∧ bit 2 = x.txOverflow ∧ bit 3 = x.strayEcho ∧ bit 4 = x.starved ∧
       ∀ i, 5 ≤ i → bit i = false) ∧
    (∃ t, exec (.cmdstatWrite w) s = .next t ∧
      t = { s with cfgReject := s.cfgReject && !w.getLsbD 2, mapBusy := s.mapBusy && !w.getLsbD 3 })

/-- What the status words show, in the positions and codes of section 10.7: CMDSTAT, TIMCFG, TIMSTAT, FRAMECNT, MAPSTAT,
CHSTAT0, and on its page each of PEND0 to PEND2, TXSTAT(c) and CHSTAT1; POOLSTAT, RINGSTAT and, of the head descriptor,
DESC0 to DESC3, which read 0 with an empty ring (R16, R35, R38, R52, R67, R97, R106, R130, R131, R139, R166, R177, R180). -/
def Obligations.StatusWordsShowTheState : Prop :=
  ∀ (c : Chan) (s : State), s.resetn = true →
    let reason := fun r : Reason => match r with
      | .none => 0 | .busy => 1 | .nothingPending => 2 | .empty => 3 | .notRunning => 4 | .unknown => 5
      | .lengthLocked => 6 | .slotBeyondFrame => 7 | .noReturnPath => 8
    let bits := fun (off : BitVec 6) (lo len : Nat) => ((readRegister s off).extractLsb' lo len).toNat
    let bit := fun (off : BitVec 6) (i : Nat) => (readRegister s off).getLsbD i
    let x := s.chan s.chsel
    let y := s.chan c
    (bits 0x02 0 2 = (match s.cmd.result with | .none => 0 | .done => 1 | .pending => 2 | .refused => 3) ∧
      bit 0x02 2 = s.cfgReject ∧ bit 0x02 3 = s.mapBusy ∧ bits 0x02 4 4 = reason s.cmd.reason ∧
      bits 0x02 8 8 = s.cmd.code.toNat) ∧
    (bits 0x06 0 3 = (match s.tim.st with
        | .off => 0 | .listen => 1 | .driving => 2 | .search => 3 | .locked => 4 | .flywheel => 5) ∧
      bit 0x06 4 = decide (s.tim.st = .driving) ∧ bit 0x06 5 = s.tim.lineUp ∧ bit 0x06 6 = s.hwsense ∧
      bit 0x06 7 = s.tim.yielded ∧
      bits 0x06 8 3 = (match s.tim.loss with | .none => 0 | .sync => 1 | .line => 2 | .slip => 3 | .conflict => 4)) ∧
    (s.map.detail < 32 → bit 0x15 0 = decide (s.map.commit = .pending) ∧
      bits 0x15 1 2 = (match s.map.result with | .none => 0 | .done => 1 | .refused => 2 | .cancelled => 3) ∧
      bits 0x15 4 4 = reason s.map.reason ∧ bits 0x15 8 5 = s.map.detail ∧ bits 0x15 14 2 = s.map.active.len.val) ∧
    (bits 0x37 0 3 = (match x.rx.st with
        | .idle => 0 | .opened => 1 | .truncating => 2 | .overrun => 3 | .starved => 4) ∧
      bit 0x37 3 = x.rx.damaged ∧ bit 0x37 4 = x.fl.asserted ∧ bit 0x37 5 = x.fl.quota ∧ bit 0x37 6 = x.fl.pool ∧
      bit 0x37 7 = x.fl.host ∧ bit 0x37 8 = x.fl.held ∧ bit 0x37 9 = x.peer.present) ∧
    (s.tim.limit < 16 → bits 0x04 0 2 = (match s.tim.role with | .follower => 0 | .master => 1 | .standby => 2) ∧
      bits 0x04 4 3 = s.tim.rank.val ∧ bits 0x04 8 4 = s.tim.limit ∧ bit 0x04 15 = s.tim.enable) ∧
    readRegister s 0x07 = s.tim.frameCnt ∧
    (s.ev.page = false → bit 0x31 0 = s.isPending .masterYielded ∧ bit 0x31 1 = s.isPending .syncLost ∧
      bit 0x31 2 = s.isPending .lineDown ∧ bit 0x31 3 = s.isPending .slip ∧ bit 0x31 4 = s.isPending .tookOver ∧
      bit 0x31 5 = s.isPending .masterActive ∧ bit 0x31 6 = s.isPending .locked ∧ bit 0x31 7 = s.isPending .lineUp ∧
      bit 0x31 8 = s.isPending .rxReady ∧ bit 0x31 9 = s.isPending .commitRefused ∧ bit 0x31 10 = s.isPending .commitDone ∧
      bits 0x31 11 5 = 0 ∧
      bit 0x32 c.val = s.isPending (.txShutdown c) ∧ bit 0x32 (8 + c.val) = s.isPending (.txDropped c) ∧
      bit 0x33 c.val = s.isPending (.rxStarved c) ∧ bit 0x33 (8 + c.val) = s.isPending (.txSpace c)) ∧
    (s.ev.page = true → bit 0x31 c.val = s.isPending (.holdExpired c) ∧ bit 0x31 (8 + c.val) = s.isPending (.peerChange c) ∧
      readRegister s 0x32 = 0 ∧ readRegister s 0x33 = 0) ∧
    (s.ev.page = false → y.tx.records.length ≤ 8 →
      bits (BitVec.ofNat 6 (0x28 + c.val)) 0 10 = 512 - (y.tx.records.map fun r => r.bytes.length).sum ∧
      bits (BitVec.ofNat 6 (0x28 + c.val)) 10 4 = y.tx.records.length ∧
      bit (BitVec.ofNat 6 (0x28 + c.val)) 14 = y.cfg.tx ∧ bit (BitVec.ofNat 6 (0x28 + c.val)) 15 = y.tx.abortOwed) ∧
    (s.ev.page = true →
      bits (BitVec.ofNat 6 (0x28 + c.val)) 0 2 = (match y.tx.records.head? with
        | none => 0 | some r => if r.closed then (if y.tx.sending then 3 else 2) else 1) ∧
      bit (BitVec.ofNat 6 (0x28 + c.val)) 4 = y.fl.held ∧
      bits (BitVec.ofNat 6 (0x28 + c.val)) 8 2 = (match y.tx.lastDrop with | .none => 0 | .restarts => 1 | .overflow => 2)) ∧
    (s.ev.page = false → x.held ≤ 128 → x.tx.coll < 16 → x.tx.r < 16 →
      bits 0x38 0 8 = x.held ∧ bits 0x38 8 4 = x.tx.coll ∧ bits 0x38 12 4 = x.tx.r) ∧
    (s.ev.page = true → bits 0x38 0 8 = x.rx.seq.toNat) ∧
    (s.pool.free.length ≤ 128 → bits 0x09 0 8 = s.pool.free.length) ∧
    (s.ring.entries.length ≤ 32 → s.ring.reserved ≤ 32 → bits 0x0B 0 6 = s.ring.entries.length ∧
      bits 0x0B 8 6 = s.ring.reserved) ∧
    (s.ring.entries = [] → ∀ off ∈ ([0x0C, 0x0D, 0x0E, 0x0F] : List (BitVec 6)), readRegister s off = 0) ∧
    (∀ (d : Descriptor) (rest : List Descriptor), s.ring.entries = d :: rest → d.length ≤ 2048 →
      bits 0x0C 0 3 = d.chan.val ∧
      bits 0x0C 4 3 = (match d.status with
        | .ok => 0 | .gap => 1 | .sync => 2 | .unmapped => 3 | .truncated => 4 | .overrun => 5) ∧
      bit 0x0C 8 = d.damaged ∧ bit 0x0C 15 = true ∧ bits 0x0D 0 12 = d.length ∧ bits 0x0E 0 8 = d.seq.toNat ∧
      bits 0x0E 8 7 = (match d.first with | some b => b.val | none => 0) ∧ readRegister s 0x0F = d.stamp)

/-- INTn is asserted exactly when INTEN is 1 and an enabled source is pending (R169). A write to INTCTL stores INTEN and the
view page; on page 0 and 1 a write to ENABLE0 to ENABLE2 stores the enables of the sources the word shows and of no other,
and the word reads back those positions, which are those of section 10.7 (R166, R167, R168). -/
def Obligations.EnablesAndInterruptLine : Prop :=
  (∀ s : State, s.intnPin = false ↔
    s.ev.inten = true ∧ ∃ x ∈ allSources, s.isPending x = true ∧ s.isEnabled x = true) ∧
  (∀ (w : Word) (s : State), s.resetn = true →
    exec (.registerWrite 0x03 w) s =
      .next { s with ev := { s.ev with inten := w.getLsbD 0, page := w.getLsbD 1 } }) ∧
  (∀ (n : Fin 3) (w : Word) (s : State), s.resetn = true →
    let per := fun (lo : Nat) (x : Chan → Source) => (List.finRange 8).map fun c => (lo + c.val, x c)
    let shown : Bool → Fin 3 → List (Nat × Source) := fun page n =>
      if page then (if n = 0 then per 0 .holdExpired ++ per 8 .peerChange else [])
      else if n = 0 then [(0, .masterYielded), (1, .syncLost), (2, .lineDown), (3, .slip), (4, .tookOver), (5, .masterActive),
        (6, .locked), (7, .lineUp), (8, .rxReady), (9, .commitRefused), (10, .commitDone)]
      else if n = 1 then per 0 .txShutdown ++ per 8 .txDropped
      else per 0 .rxStarved ++ per 8 .txSpace
    ∃ t, exec (.registerWrite (BitVec.ofNat 6 (0x34 + n.val)) w) s = .next t ∧
      { t with ev := { t.ev with enable := s.ev.enable } } = s ∧
      (∀ x ∈ allSources, t.isEnabled x = match (shown s.ev.page n).find? fun p => decide (p.2 = x) with
        | some p => w.getLsbD p.1
        | none => s.isEnabled x) ∧
      readRegister t (BitVec.ofNat 6 (0x34 + n.val)) = w &&&
        (if s.ev.page then (if n = 0 then 0xFFFF else 0) else if n = 0 then 0x07FF else 0xFFFF))

/-! ## Channels -/

/-- A write to CHCFG1 to CHCFG7 of the selected channel is checked whole: a field out of range, or an ordering LW below HW,
HW at or below quota that would not hold, changes CFG_REJECT alone; otherwise the fields of that word are stored together,
in the positions of section 10.7, and no other, and the word reads back. A new HW or LW evaluates the QUOTA cause, and the
local pause after it: a transition owes its flow word, cancels the opposite one and sets the refresh counter to 0; the rest
of the flow unit is kept (R61, R62, R63, R65, R142, R145, R146, R179). -/
def Obligations.ChcfgWriteIsCheckedWhole : Prop :=
  ∀ (n : Fin 8) (w : Word) (s : State), s.resetn = true → n ≠ 0 →
    let g := (s.chan s.chsel).cfg
    let lo8 := (w.extractLsb' 0 8).toNat
    let bad := match n with
      | 1 => lo8 = 0 ∨ 128 < lo8 ∨ g.hw ≤ g.lw ∨ lo8 < g.hw
      | 2 => lo8 = 0 ∨ 128 < lo8 ∨ lo8 ≤ g.lw ∨ g.quota < lo8
      | 3 => 127 < lo8 ∨ g.hw ≤ lo8 ∨ g.quota < g.hw
      | 4 => (w.extractLsb' 0 12).toNat = 0 ∨ 2048 < (w.extractLsb' 0 12).toNat
      | 5 => (w.extractLsb' 8 4).toNat = 0
      | 6 => (w.extractLsb' 0 6).toNat ≤ 1 ∨ (w.extractLsb' 12 4).toNat = 0
      | 7 => 512 < (w.extractLsb' 0 10).toNat
      | _ => False
    let shown : Word := match n with
      | 4 => 0x0FFF | 5 => 0x0FFF | 6 => 0xF73F | 7 => 0x03FF | _ => 0x00FF
    (bad → exec (.chcfgWrite n w) s = .next { s with cfgReject := true }) ∧
    (¬ bad → ∃ t, exec (.chcfgWrite n w) s = .next t ∧ onlyChannel s.chsel s t ∧ { t with chans := s.chans } = s ∧
      readRegister t (BitVec.ofNat 6 (0x18 + n.val)) = w &&& shown ∧
      (∀ m : Fin 8, m ≠ n → readRegister t (BitVec.ofNat 6 (0x18 + m.val)) =
        readRegister s (BitVec.ofNat 6 (0x18 + m.val))) ∧
      let x := s.chan s.chsel
      let y := t.chan s.chsel
      let quota := if y.cfg.hw ≤ x.held then true else if x.held ≤ y.cfg.lw then false else x.fl.quota
      let wanted := x.cfg.rx && x.cfg.fc && (quota || x.fl.pool || x.fl.host)
      y.cfg = (match n with
        | 1 => { g with quota := lo8 }
        | 2 => { g with hw := lo8 }
        | 3 => { g with lw := lo8 }
        | 4 => { g with maxLen := (w.extractLsb' 0 12).toNat }
        | 5 => { g with gapLimit := lo8, p := (w.extractLsb' 8 4).toNat }
        | 6 => { g with h := (w.extractLsb' 0 6).toNat, restartLimit := (w.extractLsb' 8 3).toNat
                        collLimit := (w.extractLsb' 12 4).toNat }
        | 7 => { g with spaceLevel := (w.extractLsb' 0 10).toNat }
        | _ => g) ∧
      { y with cfg := x.cfg, fl := x.fl } = x ∧ (n ≠ 2 → n ≠ 3 → y.fl = x.fl) ∧
      (n = 2 ∨ n = 3 → y.fl = if wanted = x.fl.asserted then { x.fl with quota := quota }
        else { x.fl with quota := quota, asserted := wanted, pauseOwed := wanted, resumeOwed := !wanted, refresh := 0 }))

/-- A CHCFG0 write, by CHCFG_WRITE and by the six rows that name a change of an enable. One that would leave rx_enable and
fc_enable both 1 with an RX slot and no TX slot in ACTIVE, or in SHADOW while a commit is pending, changes CFG_REJECT alone.
An accepted one stores the three enables together. Taking rx_enable to 0 discards a message in progress: its chain is freed,
its reservation returned, no descriptor is written, and no sequence value is used; taking tx_enable to 0 between slots
restarts a head SENDING at an offset above 0, uncounted, and during a slot leaves the test to its echo; taking fc_enable to
0 returns a held remote pause to GO. The local pause then is what the new enables and the causes make it, a transition of it
owing its flow word, cancelling the opposite one and setting the refresh counter to 0; blocks freed move the QUOTA cause,
and the POOL causes with the pool-low condition (R64, R66, R93, R94, R103, R117, R123, R142, R143, R145, R146, R153). That
an enable row acts as the write of any word, also one that does not carry its value, is the model's choice (log entry 9). -/
def Obligations.EnableWritesTakeEffect : Prop :=
  (∀ (w : Word) (s : State), s.resetn = true → w.getLsbD 0 = true → w.getLsbD 2 = true →
     (s.map.active.gives .rx s.chsel = true ∧ s.map.active.gives .tx s.chsel = false ∨
       s.map.commit = .pending ∧ s.map.shadow.gives .rx s.chsel = true ∧ s.map.shadow.gives .tx s.chsel = false) →
     ∀ i ∈ [Instr.chcfgWrite 0 w, .rxEnableSet w, .rxEnableClear w, .txEnableSet w, .txEnableClear w, .fcEnableSet w,
         .fcEnableClear w], exec i s = .next { s with cfgReject := true }) ∧
  (∀ (w : Word) (s : State), s.resetn = true →
     (w.getLsbD 0 = true ∧ w.getLsbD 2 = true →
       ¬ (s.map.active.gives .rx s.chsel = true ∧ s.map.active.gives .tx s.chsel = false) ∧
       (s.map.commit = .pending →
         ¬ (s.map.shadow.gives .rx s.chsel = true ∧ s.map.shadow.gives .tx s.chsel = false))) →
     ∀ i ∈ [Instr.chcfgWrite 0 w, .rxEnableSet w, .rxEnableClear w, .txEnableSet w, .txEnableClear w, .fcEnableSet w,
         .fcEnableClear w],
       ∃ t, exec i s = .next t ∧
         let x := s.chan s.chsel
         let y := t.chan s.chsel
         y.cfg = { x.cfg with rx := w.getLsbD 0, tx := w.getLsbD 1, fc := w.getLsbD 2 } ∧
         (x.cfg.rx = true → w.getLsbD 0 = false →
           (x.rx.st = .idle → y.rx = x.rx ∧ y.held = x.held ∧ t.pool = s.pool ∧ t.ring = s.ring) ∧
           (x.rx.st ≠ .idle → y.rx = { st := .idle, first := none, cur := none, fill := 0, len := 0, damaged := false, gap := 0
                                       seen := false, seq := x.rx.seq }) ∧
           (x.rx.st = .starved → y.held = x.held ∧ t.pool = s.pool ∧ t.ring = s.ring) ∧
           (x.rx.reserves = true → t.pool.free = s.pool.free ++ s.openChain s.chsel ∧
             y.held = x.held - (s.openChain s.chsel).length ∧
             (∀ b, t.pool.links.get b = if b ∈ s.openChain s.chsel then none else s.pool.links.get b) ∧
             { t.pool with free := s.pool.free, links := s.pool.links, low := s.pool.low } = s.pool ∧
             t.ring = { s.ring with reserved := s.ring.reserved - 1 })) ∧
         (x.cfg.rx = false ∨ w.getLsbD 0 = true → y.rx = x.rx ∧ y.held = x.held ∧ t.pool = s.pool ∧ t.ring = s.ring) ∧
         (x.cfg.tx = true → w.getLsbD 1 = false →
           y.tx = if x.tx.flight.isSome then { x.tx with testDue := true }
             else if x.tx.sending && decide (0 < x.tx.offset)
               then { x.tx with abortOwed := true, sending := false, offset := 0 } else x.tx) ∧
         (x.cfg.tx = false ∨ w.getLsbD 1 = true → y.tx = x.tx) ∧
         (x.cfg.fc = true → w.getLsbD 2 = false → y.fl.held = false ∧ y.fl.holdCnt = 0) ∧
         (x.cfg.fc = false ∨ w.getLsbD 2 = true → y.fl.held = x.fl.held ∧ y.fl.holdCnt = x.fl.holdCnt) ∧
         y.fl.asserted = (w.getLsbD 0 && w.getLsbD 2 && (y.fl.quota || y.fl.pool || y.fl.host)) ∧
         y.fl.host = x.fl.host ∧ flowsFollow [s.chsel] s t ∧
         y.peer = x.peer ∧ y.sticky = x.sticky ∧ t.ring.entries = s.ring.entries ∧
         (∀ d, d ≠ s.chsel → { t.chan d with fl := (s.chan d).fl } = s.chan d) ∧
         (x.cfg.rx = false ∨ w.getLsbD 0 = true → onlyChannel s.chsel s t) ∧
         { t with chans := s.chans, pool := s.pool, ring := s.ring } = s)

/-- FLUSH(c) shows DONE in every state: the transmit list is empty, an ABORT is owed if it was or if the head was SENDING
above offset 0, the counters are 0, and a word in flight stays in flight without its head; a message being received is
discarded; the HOST cause and the remote pause are gone; the sticky flags are clear. The local pause then is what the causes
left make it, a transition of it owing its flow word, cancelling the opposite one and setting the refresh counter to 0.
Configuration, peer presence, the sequence counter and the ring's entries are kept, as is every other channel but for its
flow unit, which the freed blocks may reach through the pool-low condition (R68, R69, R70, R71, R72, R117, R142, R143, R145,
R146). -/
def Obligations.FlushClearsTheChannel : Prop :=
  ∀ (c : Chan) (s : State), s.resetn = true → ∃ t, exec (.flush c) s = .next t ∧
    t.cmd = { result := .done, reason := .none, code := BitVec.ofNat 8 (0x10 + c.val) } ∧
    let x := s.chan c
    let y := t.chan c
    y.cfg = x.cfg ∧ y.peer = x.peer ∧ y.sticky = {} ∧
    y.tx.records = [] ∧ y.tx.lone = false ∧ y.tx.sending = false ∧ y.tx.offset = 0 ∧ y.tx.dropAfter = false ∧
    y.tx.r = 0 ∧ y.tx.coll = 0 ∧ y.tx.lastDrop = x.tx.lastDrop ∧
    y.tx.abortOwed = (x.tx.abortOwed || (x.tx.sending && decide (0 < x.tx.offset))) ∧
    y.tx.flight = x.tx.flight.map (fun f => { f with orphan := true }) ∧
    y.rx = { st := .idle, first := none, cur := none, fill := 0, len := 0, damaged := false, gap := 0, seen := false
             seq := x.rx.seq } ∧
    y.fl.host = false ∧ y.fl.held = false ∧ y.fl.holdCnt = 0 ∧ y.fl.flight = x.fl.flight ∧
    y.fl.asserted = (y.cfg.rx && y.cfg.fc && (y.fl.quota || y.fl.pool || y.fl.host)) ∧ flowsFollow [c] s t ∧
    t.ring = { s.ring with
      reserved := if x.rx.reserves then s.ring.reserved - 1 else s.ring.reserved } ∧
    (x.rx.reserves = true → t.pool.free = s.pool.free ++ s.openChain c ∧
      y.held = x.held - (s.openChain c).length ∧
      (∀ b, t.pool.links.get b = if b ∈ s.openChain c then none else s.pool.links.get b) ∧
      { t.pool with free := s.pool.free, links := s.pool.links, low := s.pool.low } = s.pool) ∧
    (x.rx.reserves = false → t.pool = s.pool ∧ y.held = x.held) ∧
    (∀ d, d ≠ c → { t.chan d with fl := (s.chan d).fl } = s.chan d) ∧ t.isPending (.txSpace c) =
      decide (x.cfg.spaceLevel ≤ 512) ∧
    { t with cmd := s.cmd, chans := s.chans, pool := s.pool, ring := s.ring } = s

/-- HOST_PAUSE(c) and HOST_RESUME(c) show DONE in every state and set and clear the HOST cause. A local pause that this
changes makes a transition, which owes the flow word of the new state, cancels the other and sets the refresh counter to 0;
one that stays as it was owes nothing new (R144, R145, R146). -/
def Obligations.HostCauseMovesTheLocalPause : Prop :=
  ∀ (c : Chan) (on : Bool) (s : State), s.resetn = true →
    ∃ t, exec (if on then .hostPause c else .hostResume c) s = .next t ∧
      t.cmd = { result := .done, reason := .none
                code := BitVec.ofNat 8 ((if on then 0x20 else 0x28) + c.val) } ∧
      onlyChannel c s t ∧ { t with cmd := s.cmd, chans := s.chans } = s ∧
      let x := s.chan c
      let wanted := x.cfg.rx && x.cfg.fc && (x.fl.quota || x.fl.pool || on)
      t.chan c = { x with fl :=
        if wanted = x.fl.asserted then { x.fl with host := on }
        else { x.fl with host := on, asserted := wanted, pauseOwed := wanted, resumeOwed := !wanted, refresh := 0 } }

/-- Writes at offsets without a row of their own: REFDIV and CHSEL take the whole word and reject it with CFG_REJECT outside
their range, REFDIV also while enable is 1; MAPADDR stores its slot index from bits 4-0, its bank select from bit 8 and its
auto-increment flag from bit 15; read-only registers and offsets without a register ignore the write; what is stored reads
back. A COMMAND write with a code that names no command is refused with UNKNOWN, shows its code and changes nothing else
(R16, R42, R60, R174, R175, R176, R177, R179). -/
def Obligations.RegisterWritesStoreOrAreIgnored : Prop :=
  ∀ (w : Word) (s : State), s.resetn = true →
    (s.tim.enable = true ∨ w.toNat < 2 ∨ 1023 < w.toNat →
      exec (.registerWrite 0x05 w) s = .next { s with cfgReject := true }) ∧
    (s.tim.enable = false → 2 ≤ w.toNat → w.toNat ≤ 1023 → ∃ t, exec (.registerWrite 0x05 w) s = .next t ∧
      t = { s with tim := { s.tim with refdiv := w.toNat } } ∧ readRegister t 0x05 = w) ∧
    (8 ≤ w.toNat → exec (.registerWrite 0x16 w) s = .next { s with cfgReject := true }) ∧
    (w.toNat < 8 → ∃ t, exec (.registerWrite 0x16 w) s = .next t ∧ readRegister t 0x16 = w ∧
      { t with chsel := s.chsel } = s) ∧
    (∃ t, exec (.registerWrite 0x12 w) s = .next t ∧ readRegister t 0x12 = w &&& 0x811F ∧
      t.map.index.val = (w.extractLsb' 0 5).toNat ∧ t.map.selActive = w.getLsbD 8 ∧ t.map.autoInc = w.getLsbD 15 ∧
      { t with map := { t.map with index := s.map.index, selActive := s.map.selActive, autoInc := s.map.autoInc } } = s) ∧
    (∀ off ∈ ([0x00, 0x06, 0x07, 0x09, 0x0B, 0x0C, 0x0D, 0x0E, 0x0F, 0x10, 0x15, 0x28, 0x29, 0x2A, 0x2B, 0x2C, 0x2D, 0x2E,
        0x2F, 0x30, 0x31, 0x32, 0x33, 0x37, 0x38, 0x39, 0x3A, 0x3B, 0x3C, 0x3D, 0x3E, 0x3F] : List (BitVec 6)),
      exec (.registerWrite off w) s = .next s) ∧
    (∀ code : BitVec 8, (Instr.unknownCommand code).wf = true →
      exec (.unknownCommand code) s = .next { s with cmd := { result := .refused, reason := .unknown, code := code } })

/-! ## The laws of the whole part -/

/-- The state after hard reset satisfies every law of the part. -/
def Obligations.ResetSatisfiesTheLaws : Prop :=
  State.reset.configLaw ∧ State.reset.mapLaw ∧ State.reset.slotLaw ∧ State.reset.pauseLaw ∧ State.reset.txLaw ∧
  State.reset.ringLaw ∧ State.reset.memLaw ∧ State.reset.sound

/-- Every step keeps every configuration field in its range, LW below HW and HW at or below quota (R16, R59, R105, R136). -/
def Obligations.StepKeepsConfigLaw : Prop :=
  ∀ s t : State, s.configLaw → step s = .next t → t.configLaw

/-- Every step keeps the laws of the banks and of a pending commit, UNUSED entries with channel 0 among them, and the law of
the slot in progress: it is worked in LOCKED or DRIVING only, its number below the frame length, with at most eleven bits
(R8, R9, R41, R49, R50). -/
def Obligations.StepKeepsMapLaw : Prop :=
  ∀ s t : State, s.mapLaw → s.slotLaw → step s = .next t → t.mapLaw ∧ t.slotLaw

/-- Every step keeps the local pause of every channel what its enables and causes make it, an owed flow word matching it,
the causes what held(c) and the pool-low condition make them, and that condition what the free count makes it (R106, R142,
R143, R145, R146). -/
def Obligations.StepKeepsPauseLaw : Prop :=
  ∀ s t : State, s.configLaw → s.pauseLaw → step s = .next t → t.pauseLaw

/-- Every step keeps every transmit list within 512 bytes and 8 records, none open but the newest (R77). -/
def Obligations.StepKeepsTxLaw : Prop :=
  ∀ s t : State, s.txLaw → step s = .next t → t.txLaw

/-- Every step keeps the reservation count equal to the number of channels that hold one, and filled entries and
reservations together at 32 or below (R128, R139); and every step keeps the bytes of the pool in canonical form. -/
def Obligations.StepKeepsRingAndMemoryLaws : Prop :=
  (∀ s t : State, s.ringLaw → step s = .next t → t.ringLaw) ∧
  (∀ s t : State, s.memLaw → step s = .next t → t.memLaw)

/-- Every block stays on the free list or in exactly one chain, held(c) counts the blocks of channel c, so that the free
count and the held counts always sum to 128, and no step stops (R100, R101, R102, R103, R130, R132). -/
def Obligations.BlocksAreConservedAndNoStepStops : Prop :=
  ∀ s : State, s.sound → s.pool.free.length + (channels.map fun c => (s.chan c).held).sum = 128 ∧
    ∃ t, step s = .next t ∧ t.sound
end

