-- ==== Sys2Proof/Laws/State.lean ====
section
/-! SUPPORT. What each named update of the state leaves as it was: one lemma per field per update, true by rfl, and the
reading of a channel after a channel is replaced. -/

namespace Sys2Proof.Machine

open Sys2Proof

/-! ## A channel replaced -/

/-- Reading any channel after one is replaced. -/
theorem chan_setChan (s : State) (c d : Chan) (x : Channel) :
    (s.setChan c x).chan d = if d = c then x else s.chan d := by
  show (s.chans.set c.val x c.isLt)[d.val] = if d = c then x else s.chans[d.val]
  rw [Vector.getElem_set]
  by_cases h : d = c
  · subst h; simp
  · have h' : c.val ≠ d.val := fun e => h (Fin.ext e.symm)
    simp [h, h']

@[simp] theorem chan_setChan_same (s : State) (c : Chan) (x : Channel) : (s.setChan c x).chan c = x := by
  simp [chan_setChan]

@[simp] theorem chan_setChan_other (s : State) {c d : Chan} (x : Channel) (h : d ≠ c) :
    (s.setChan c x).chan d = s.chan d := by
  simp [chan_setChan, h]

@[simp] theorem setChan_setChan (s : State) (c : Chan) (x y : Channel) :
    (s.setChan c x).setChan c y = s.setChan c y := by
  simp [State.setChan]

/-- The channels are one vector: equal at every channel, equal. -/
theorem chans_ext {s t : State} (h : ∀ d, t.chan d = s.chan d) : t.chans = s.chans := by
  ext i hi
  exact h ⟨i, hi⟩

@[simp] theorem setChan_self (s : State) (c : Chan) : s.setChan c (s.chan c) = s := by
  have h : (s.setChan c (s.chan c)).chans = s.chans := by
    apply chans_ext
    intro d
    by_cases h : d = c
    · subst h; simp
    · simp [h]
  show { s with chans := (s.setChan c (s.chan c)).chans } = s
  rw [h]

theorem setTx_eq (s : State) (c : Chan) (u : TxUnit) : s.setTx c u = s.setChan c { s.chan c with tx := u } := rfl
theorem setRx_eq (s : State) (c : Chan) (u : RxUnit) : s.setRx c u = s.setChan c { s.chan c with rx := u } := rfl
theorem setFl_eq (s : State) (c : Chan) (u : FlowUnit) : s.setFl c u = s.setChan c { s.chan c with fl := u } := rfl
theorem setCfg_eq (s : State) (c : Chan) (g : ChanCfg) : s.setCfg c g = s.setChan c { s.chan c with cfg := g } := rfl
theorem setPeer_eq (s : State) (c : Chan) (p : Peer) : s.setPeer c p = s.setChan c { s.chan c with peer := p } := rfl
theorem setSticky_eq (s : State) (c : Chan) (k : Sticky) :
    s.setSticky c k = s.setChan c { s.chan c with sticky := k } := rfl

@[simp] theorem chan_setTx_same (s : State) (c : Chan) (u : TxUnit) : (s.setTx c u).chan c = { s.chan c with tx := u } :=
  chan_setChan_same s c _
@[simp] theorem chan_setTx_other (s : State) {c d : Chan} (u : TxUnit) (h : d ≠ c) : (s.setTx c u).chan d = s.chan d :=
  chan_setChan_other s _ h
@[simp] theorem chan_setRx_same (s : State) (c : Chan) (u : RxUnit) : (s.setRx c u).chan c = { s.chan c with rx := u } :=
  chan_setChan_same s c _
@[simp] theorem chan_setRx_other (s : State) {c d : Chan} (u : RxUnit) (h : d ≠ c) : (s.setRx c u).chan d = s.chan d :=
  chan_setChan_other s _ h
@[simp] theorem chan_setFl_same (s : State) (c : Chan) (u : FlowUnit) : (s.setFl c u).chan c = { s.chan c with fl := u } :=
  chan_setChan_same s c _
@[simp] theorem chan_setFl_other (s : State) {c d : Chan} (u : FlowUnit) (h : d ≠ c) : (s.setFl c u).chan d = s.chan d :=
  chan_setChan_other s _ h
@[simp] theorem chan_setCfg_same (s : State) (c : Chan) (u : ChanCfg) : (s.setCfg c u).chan c = { s.chan c with cfg := u } :=
  chan_setChan_same s c _
@[simp] theorem chan_setCfg_other (s : State) {c d : Chan} (u : ChanCfg) (h : d ≠ c) : (s.setCfg c u).chan d = s.chan d :=
  chan_setChan_other s _ h
@[simp] theorem chan_setPeer_same (s : State) (c : Chan) (u : Peer) : (s.setPeer c u).chan c = { s.chan c with peer := u } :=
  chan_setChan_same s c _
@[simp] theorem chan_setPeer_other (s : State) {c d : Chan} (u : Peer) (h : d ≠ c) : (s.setPeer c u).chan d = s.chan d :=
  chan_setChan_other s _ h
@[simp] theorem chan_setSticky_same (s : State) (c : Chan) (u : Sticky) : (s.setSticky c u).chan c = { s.chan c with sticky := u } :=
  chan_setChan_same s c _
@[simp] theorem chan_setSticky_other (s : State) {c d : Chan} (u : Sticky) (h : d ≠ c) : (s.setSticky c u).chan d = s.chan d :=
  chan_setChan_other s _ h

/-! ## setChan -/

@[simp] theorem setChan_pending (s : State) (c : Chan) (x : Channel) : (s.setChan c x).pending = s.pending := rfl
@[simp] theorem setChan_inputs (s : State) (c : Chan) (x : Channel) : (s.setChan c x).inputs = s.inputs := rfl
@[simp] theorem setChan_bus (s : State) (c : Chan) (x : Channel) : (s.setChan c x).bus = s.bus := rfl
@[simp] theorem setChan_hwclkLow (s : State) (c : Chan) (x : Channel) : (s.setChan c x).hwclkLow = s.hwclkLow := rfl
@[simp] theorem setChan_dataHeld (s : State) (c : Chan) (x : Channel) : (s.setChan c x).dataHeld = s.dataHeld := rfl
@[simp] theorem setChan_resetn (s : State) (c : Chan) (x : Channel) : (s.setChan c x).resetn = s.resetn := rfl
@[simp] theorem setChan_hwsense (s : State) (c : Chan) (x : Channel) : (s.setChan c x).hwsense = s.hwsense := rfl
@[simp] theorem setChan_dataSample (s : State) (c : Chan) (x : Channel) : (s.setChan c x).dataSample = s.dataSample := rfl
@[simp] theorem setChan_readData (s : State) (c : Chan) (x : Channel) : (s.setChan c x).readData = s.readData := rfl
@[simp] theorem setChan_cmd (s : State) (c : Chan) (x : Channel) : (s.setChan c x).cmd = s.cmd := rfl
@[simp] theorem setChan_cfgReject (s : State) (c : Chan) (x : Channel) : (s.setChan c x).cfgReject = s.cfgReject := rfl
@[simp] theorem setChan_mapBusy (s : State) (c : Chan) (x : Channel) : (s.setChan c x).mapBusy = s.mapBusy := rfl
@[simp] theorem setChan_chsel (s : State) (c : Chan) (x : Channel) : (s.setChan c x).chsel = s.chsel := rfl
@[simp] theorem setChan_tim (s : State) (c : Chan) (x : Channel) : (s.setChan c x).tim = s.tim := rfl
@[simp] theorem setChan_gen (s : State) (c : Chan) (x : Channel) : (s.setChan c x).gen = s.gen := rfl
@[simp] theorem setChan_slot (s : State) (c : Chan) (x : Channel) : (s.setChan c x).slot = s.slot := rfl
@[simp] theorem setChan_map (s : State) (c : Chan) (x : Channel) : (s.setChan c x).map = s.map := rfl
@[simp] theorem setChan_pool (s : State) (c : Chan) (x : Channel) : (s.setChan c x).pool = s.pool := rfl
@[simp] theorem setChan_ring (s : State) (c : Chan) (x : Channel) : (s.setChan c x).ring = s.ring := rfl
@[simp] theorem setChan_ev (s : State) (c : Chan) (x : Channel) : (s.setChan c x).ev = s.ev := rfl
@[simp] theorem setChan_arb (s : State) (c : Chan) (x : Channel) : (s.setChan c x).arb = s.arb := rfl

/-! ## setTx -/

@[simp] theorem setTx_pending (s : State) (c : Chan) (u : TxUnit) : (s.setTx c u).pending = s.pending := rfl
@[simp] theorem setTx_inputs (s : State) (c : Chan) (u : TxUnit) : (s.setTx c u).inputs = s.inputs := rfl
@[simp] theorem setTx_bus (s : State) (c : Chan) (u : TxUnit) : (s.setTx c u).bus = s.bus := rfl
@[simp] theorem setTx_hwclkLow (s : State) (c : Chan) (u : TxUnit) : (s.setTx c u).hwclkLow = s.hwclkLow := rfl
@[simp] theorem setTx_dataHeld (s : State) (c : Chan) (u : TxUnit) : (s.setTx c u).dataHeld = s.dataHeld := rfl
@[simp] theorem setTx_resetn (s : State) (c : Chan) (u : TxUnit) : (s.setTx c u).resetn = s.resetn := rfl
@[simp] theorem setTx_hwsense (s : State) (c : Chan) (u : TxUnit) : (s.setTx c u).hwsense = s.hwsense := rfl
@[simp] theorem setTx_dataSample (s : State) (c : Chan) (u : TxUnit) : (s.setTx c u).dataSample = s.dataSample := rfl
@[simp] theorem setTx_readData (s : State) (c : Chan) (u : TxUnit) : (s.setTx c u).readData = s.readData := rfl
@[simp] theorem setTx_cmd (s : State) (c : Chan) (u : TxUnit) : (s.setTx c u).cmd = s.cmd := rfl
@[simp] theorem setTx_cfgReject (s : State) (c : Chan) (u : TxUnit) : (s.setTx c u).cfgReject = s.cfgReject := rfl
@[simp] theorem setTx_mapBusy (s : State) (c : Chan) (u : TxUnit) : (s.setTx c u).mapBusy = s.mapBusy := rfl
@[simp] theorem setTx_chsel (s : State) (c : Chan) (u : TxUnit) : (s.setTx c u).chsel = s.chsel := rfl
@[simp] theorem setTx_tim (s : State) (c : Chan) (u : TxUnit) : (s.setTx c u).tim = s.tim := rfl
@[simp] theorem setTx_gen (s : State) (c : Chan) (u : TxUnit) : (s.setTx c u).gen = s.gen := rfl
@[simp] theorem setTx_slot (s : State) (c : Chan) (u : TxUnit) : (s.setTx c u).slot = s.slot := rfl
@[simp] theorem setTx_map (s : State) (c : Chan) (u : TxUnit) : (s.setTx c u).map = s.map := rfl
@[simp] theorem setTx_pool (s : State) (c : Chan) (u : TxUnit) : (s.setTx c u).pool = s.pool := rfl
@[simp] theorem setTx_ring (s : State) (c : Chan) (u : TxUnit) : (s.setTx c u).ring = s.ring := rfl
@[simp] theorem setTx_ev (s : State) (c : Chan) (u : TxUnit) : (s.setTx c u).ev = s.ev := rfl
@[simp] theorem setTx_arb (s : State) (c : Chan) (u : TxUnit) : (s.setTx c u).arb = s.arb := rfl

/-! ## setRx -/

@[simp] theorem setRx_pending (s : State) (c : Chan) (u : RxUnit) : (s.setRx c u).pending = s.pending := rfl
@[simp] theorem setRx_inputs (s : State) (c : Chan) (u : RxUnit) : (s.setRx c u).inputs = s.inputs := rfl
@[simp] theorem setRx_bus (s : State) (c : Chan) (u : RxUnit) : (s.setRx c u).bus = s.bus := rfl
@[simp] theorem setRx_hwclkLow (s : State) (c : Chan) (u : RxUnit) : (s.setRx c u).hwclkLow = s.hwclkLow := rfl
@[simp] theorem setRx_dataHeld (s : State) (c : Chan) (u : RxUnit) : (s.setRx c u).dataHeld = s.dataHeld := rfl
@[simp] theorem setRx_resetn (s : State) (c : Chan) (u : RxUnit) : (s.setRx c u).resetn = s.resetn := rfl
@[simp] theorem setRx_hwsense (s : State) (c : Chan) (u : RxUnit) : (s.setRx c u).hwsense = s.hwsense := rfl
@[simp] theorem setRx_dataSample (s : State) (c : Chan) (u : RxUnit) : (s.setRx c u).dataSample = s.dataSample := rfl
@[simp] theorem setRx_readData (s : State) (c : Chan) (u : RxUnit) : (s.setRx c u).readData = s.readData := rfl
@[simp] theorem setRx_cmd (s : State) (c : Chan) (u : RxUnit) : (s.setRx c u).cmd = s.cmd := rfl
@[simp] theorem setRx_cfgReject (s : State) (c : Chan) (u : RxUnit) : (s.setRx c u).cfgReject = s.cfgReject := rfl
@[simp] theorem setRx_mapBusy (s : State) (c : Chan) (u : RxUnit) : (s.setRx c u).mapBusy = s.mapBusy := rfl
@[simp] theorem setRx_chsel (s : State) (c : Chan) (u : RxUnit) : (s.setRx c u).chsel = s.chsel := rfl
@[simp] theorem setRx_tim (s : State) (c : Chan) (u : RxUnit) : (s.setRx c u).tim = s.tim := rfl
@[simp] theorem setRx_gen (s : State) (c : Chan) (u : RxUnit) : (s.setRx c u).gen = s.gen := rfl
@[simp] theorem setRx_slot (s : State) (c : Chan) (u : RxUnit) : (s.setRx c u).slot = s.slot := rfl
@[simp] theorem setRx_map (s : State) (c : Chan) (u : RxUnit) : (s.setRx c u).map = s.map := rfl
@[simp] theorem setRx_pool (s : State) (c : Chan) (u : RxUnit) : (s.setRx c u).pool = s.pool := rfl
@[simp] theorem setRx_ring (s : State) (c : Chan) (u : RxUnit) : (s.setRx c u).ring = s.ring := rfl
@[simp] theorem setRx_ev (s : State) (c : Chan) (u : RxUnit) : (s.setRx c u).ev = s.ev := rfl
@[simp] theorem setRx_arb (s : State) (c : Chan) (u : RxUnit) : (s.setRx c u).arb = s.arb := rfl

/-! ## setFl -/

@[simp] theorem setFl_pending (s : State) (c : Chan) (u : FlowUnit) : (s.setFl c u).pending = s.pending := rfl
@[simp] theorem setFl_inputs (s : State) (c : Chan) (u : FlowUnit) : (s.setFl c u).inputs = s.inputs := rfl
@[simp] theorem setFl_bus (s : State) (c : Chan) (u : FlowUnit) : (s.setFl c u).bus = s.bus := rfl
@[simp] theorem setFl_hwclkLow (s : State) (c : Chan) (u : FlowUnit) : (s.setFl c u).hwclkLow = s.hwclkLow := rfl
@[simp] theorem setFl_dataHeld (s : State) (c : Chan) (u : FlowUnit) : (s.setFl c u).dataHeld = s.dataHeld := rfl
@[simp] theorem setFl_resetn (s : State) (c : Chan) (u : FlowUnit) : (s.setFl c u).resetn = s.resetn := rfl
@[simp] theorem setFl_hwsense (s : State) (c : Chan) (u : FlowUnit) : (s.setFl c u).hwsense = s.hwsense := rfl
@[simp] theorem setFl_dataSample (s : State) (c : Chan) (u : FlowUnit) : (s.setFl c u).dataSample = s.dataSample := rfl
@[simp] theorem setFl_readData (s : State) (c : Chan) (u : FlowUnit) : (s.setFl c u).readData = s.readData := rfl
@[simp] theorem setFl_cmd (s : State) (c : Chan) (u : FlowUnit) : (s.setFl c u).cmd = s.cmd := rfl
@[simp] theorem setFl_cfgReject (s : State) (c : Chan) (u : FlowUnit) : (s.setFl c u).cfgReject = s.cfgReject := rfl
@[simp] theorem setFl_mapBusy (s : State) (c : Chan) (u : FlowUnit) : (s.setFl c u).mapBusy = s.mapBusy := rfl
@[simp] theorem setFl_chsel (s : State) (c : Chan) (u : FlowUnit) : (s.setFl c u).chsel = s.chsel := rfl
@[simp] theorem setFl_tim (s : State) (c : Chan) (u : FlowUnit) : (s.setFl c u).tim = s.tim := rfl
@[simp] theorem setFl_gen (s : State) (c : Chan) (u : FlowUnit) : (s.setFl c u).gen = s.gen := rfl
@[simp] theorem setFl_slot (s : State) (c : Chan) (u : FlowUnit) : (s.setFl c u).slot = s.slot := rfl
@[simp] theorem setFl_map (s : State) (c : Chan) (u : FlowUnit) : (s.setFl c u).map = s.map := rfl
@[simp] theorem setFl_pool (s : State) (c : Chan) (u : FlowUnit) : (s.setFl c u).pool = s.pool := rfl
@[simp] theorem setFl_ring (s : State) (c : Chan) (u : FlowUnit) : (s.setFl c u).ring = s.ring := rfl
@[simp] theorem setFl_ev (s : State) (c : Chan) (u : FlowUnit) : (s.setFl c u).ev = s.ev := rfl
@[simp] theorem setFl_arb (s : State) (c : Chan) (u : FlowUnit) : (s.setFl c u).arb = s.arb := rfl

/-! ## setCfg -/

@[simp] theorem setCfg_pending (s : State) (c : Chan) (u : ChanCfg) : (s.setCfg c u).pending = s.pending := rfl
@[simp] theorem setCfg_inputs (s : State) (c : Chan) (u : ChanCfg) : (s.setCfg c u).inputs = s.inputs := rfl
@[simp] theorem setCfg_bus (s : State) (c : Chan) (u : ChanCfg) : (s.setCfg c u).bus = s.bus := rfl
@[simp] theorem setCfg_hwclkLow (s : State) (c : Chan) (u : ChanCfg) : (s.setCfg c u).hwclkLow = s.hwclkLow := rfl
@[simp] theorem setCfg_dataHeld (s : State) (c : Chan) (u : ChanCfg) : (s.setCfg c u).dataHeld = s.dataHeld := rfl
@[simp] theorem setCfg_resetn (s : State) (c : Chan) (u : ChanCfg) : (s.setCfg c u).resetn = s.resetn := rfl
@[simp] theorem setCfg_hwsense (s : State) (c : Chan) (u : ChanCfg) : (s.setCfg c u).hwsense = s.hwsense := rfl
@[simp] theorem setCfg_dataSample (s : State) (c : Chan) (u : ChanCfg) : (s.setCfg c u).dataSample = s.dataSample := rfl
@[simp] theorem setCfg_readData (s : State) (c : Chan) (u : ChanCfg) : (s.setCfg c u).readData = s.readData := rfl
@[simp] theorem setCfg_cmd (s : State) (c : Chan) (u : ChanCfg) : (s.setCfg c u).cmd = s.cmd := rfl
@[simp] theorem setCfg_cfgReject (s : State) (c : Chan) (u : ChanCfg) : (s.setCfg c u).cfgReject = s.cfgReject := rfl
@[simp] theorem setCfg_mapBusy (s : State) (c : Chan) (u : ChanCfg) : (s.setCfg c u).mapBusy = s.mapBusy := rfl
@[simp] theorem setCfg_chsel (s : State) (c : Chan) (u : ChanCfg) : (s.setCfg c u).chsel = s.chsel := rfl
@[simp] theorem setCfg_tim (s : State) (c : Chan) (u : ChanCfg) : (s.setCfg c u).tim = s.tim := rfl
@[simp] theorem setCfg_gen (s : State) (c : Chan) (u : ChanCfg) : (s.setCfg c u).gen = s.gen := rfl
@[simp] theorem setCfg_slot (s : State) (c : Chan) (u : ChanCfg) : (s.setCfg c u).slot = s.slot := rfl
@[simp] theorem setCfg_map (s : State) (c : Chan) (u : ChanCfg) : (s.setCfg c u).map = s.map := rfl
@[simp] theorem setCfg_pool (s : State) (c : Chan) (u : ChanCfg) : (s.setCfg c u).pool = s.pool := rfl
@[simp] theorem setCfg_ring (s : State) (c : Chan) (u : ChanCfg) : (s.setCfg c u).ring = s.ring := rfl
@[simp] theorem setCfg_ev (s : State) (c : Chan) (u : ChanCfg) : (s.setCfg c u).ev = s.ev := rfl
@[simp] theorem setCfg_arb (s : State) (c : Chan) (u : ChanCfg) : (s.setCfg c u).arb = s.arb := rfl

/-! ## setPeer -/

@[simp] theorem setPeer_pending (s : State) (c : Chan) (u : Peer) : (s.setPeer c u).pending = s.pending := rfl
@[simp] theorem setPeer_inputs (s : State) (c : Chan) (u : Peer) : (s.setPeer c u).inputs = s.inputs := rfl
@[simp] theorem setPeer_bus (s : State) (c : Chan) (u : Peer) : (s.setPeer c u).bus = s.bus := rfl
@[simp] theorem setPeer_hwclkLow (s : State) (c : Chan) (u : Peer) : (s.setPeer c u).hwclkLow = s.hwclkLow := rfl
@[simp] theorem setPeer_dataHeld (s : State) (c : Chan) (u : Peer) : (s.setPeer c u).dataHeld = s.dataHeld := rfl
@[simp] theorem setPeer_resetn (s : State) (c : Chan) (u : Peer) : (s.setPeer c u).resetn = s.resetn := rfl
@[simp] theorem setPeer_hwsense (s : State) (c : Chan) (u : Peer) : (s.setPeer c u).hwsense = s.hwsense := rfl
@[simp] theorem setPeer_dataSample (s : State) (c : Chan) (u : Peer) : (s.setPeer c u).dataSample = s.dataSample := rfl
@[simp] theorem setPeer_readData (s : State) (c : Chan) (u : Peer) : (s.setPeer c u).readData = s.readData := rfl
@[simp] theorem setPeer_cmd (s : State) (c : Chan) (u : Peer) : (s.setPeer c u).cmd = s.cmd := rfl
@[simp] theorem setPeer_cfgReject (s : State) (c : Chan) (u : Peer) : (s.setPeer c u).cfgReject = s.cfgReject := rfl
@[simp] theorem setPeer_mapBusy (s : State) (c : Chan) (u : Peer) : (s.setPeer c u).mapBusy = s.mapBusy := rfl
@[simp] theorem setPeer_chsel (s : State) (c : Chan) (u : Peer) : (s.setPeer c u).chsel = s.chsel := rfl
@[simp] theorem setPeer_tim (s : State) (c : Chan) (u : Peer) : (s.setPeer c u).tim = s.tim := rfl
@[simp] theorem setPeer_gen (s : State) (c : Chan) (u : Peer) : (s.setPeer c u).gen = s.gen := rfl
@[simp] theorem setPeer_slot (s : State) (c : Chan) (u : Peer) : (s.setPeer c u).slot = s.slot := rfl
@[simp] theorem setPeer_map (s : State) (c : Chan) (u : Peer) : (s.setPeer c u).map = s.map := rfl
@[simp] theorem setPeer_pool (s : State) (c : Chan) (u : Peer) : (s.setPeer c u).pool = s.pool := rfl
@[simp] theorem setPeer_ring (s : State) (c : Chan) (u : Peer) : (s.setPeer c u).ring = s.ring := rfl
@[simp] theorem setPeer_ev (s : State) (c : Chan) (u : Peer) : (s.setPeer c u).ev = s.ev := rfl
@[simp] theorem setPeer_arb (s : State) (c : Chan) (u : Peer) : (s.setPeer c u).arb = s.arb := rfl

/-! ## setSticky -/

@[simp] theorem setSticky_pending (s : State) (c : Chan) (u : Sticky) : (s.setSticky c u).pending = s.pending := rfl
@[simp] theorem setSticky_inputs (s : State) (c : Chan) (u : Sticky) : (s.setSticky c u).inputs = s.inputs := rfl
@[simp] theorem setSticky_bus (s : State) (c : Chan) (u : Sticky) : (s.setSticky c u).bus = s.bus := rfl
@[simp] theorem setSticky_hwclkLow (s : State) (c : Chan) (u : Sticky) : (s.setSticky c u).hwclkLow = s.hwclkLow := rfl
@[simp] theorem setSticky_dataHeld (s : State) (c : Chan) (u : Sticky) : (s.setSticky c u).dataHeld = s.dataHeld := rfl
@[simp] theorem setSticky_resetn (s : State) (c : Chan) (u : Sticky) : (s.setSticky c u).resetn = s.resetn := rfl
@[simp] theorem setSticky_hwsense (s : State) (c : Chan) (u : Sticky) : (s.setSticky c u).hwsense = s.hwsense := rfl
@[simp] theorem setSticky_dataSample (s : State) (c : Chan) (u : Sticky) : (s.setSticky c u).dataSample = s.dataSample := rfl
@[simp] theorem setSticky_readData (s : State) (c : Chan) (u : Sticky) : (s.setSticky c u).readData = s.readData := rfl
@[simp] theorem setSticky_cmd (s : State) (c : Chan) (u : Sticky) : (s.setSticky c u).cmd = s.cmd := rfl
@[simp] theorem setSticky_cfgReject (s : State) (c : Chan) (u : Sticky) : (s.setSticky c u).cfgReject = s.cfgReject := rfl
@[simp] theorem setSticky_mapBusy (s : State) (c : Chan) (u : Sticky) : (s.setSticky c u).mapBusy = s.mapBusy := rfl
@[simp] theorem setSticky_chsel (s : State) (c : Chan) (u : Sticky) : (s.setSticky c u).chsel = s.chsel := rfl
@[simp] theorem setSticky_tim (s : State) (c : Chan) (u : Sticky) : (s.setSticky c u).tim = s.tim := rfl
@[simp] theorem setSticky_gen (s : State) (c : Chan) (u : Sticky) : (s.setSticky c u).gen = s.gen := rfl
@[simp] theorem setSticky_slot (s : State) (c : Chan) (u : Sticky) : (s.setSticky c u).slot = s.slot := rfl
@[simp] theorem setSticky_map (s : State) (c : Chan) (u : Sticky) : (s.setSticky c u).map = s.map := rfl
@[simp] theorem setSticky_pool (s : State) (c : Chan) (u : Sticky) : (s.setSticky c u).pool = s.pool := rfl
@[simp] theorem setSticky_ring (s : State) (c : Chan) (u : Sticky) : (s.setSticky c u).ring = s.ring := rfl
@[simp] theorem setSticky_ev (s : State) (c : Chan) (u : Sticky) : (s.setSticky c u).ev = s.ev := rfl
@[simp] theorem setSticky_arb (s : State) (c : Chan) (u : Sticky) : (s.setSticky c u).arb = s.arb := rfl

/-! ## writePoolByte -/

@[simp] theorem writePoolByte_pending (s : State) (b : BlockNo) (p : Nat) (v : Byte) : (s.writePoolByte b p v).pending = s.pending := rfl
@[simp] theorem writePoolByte_inputs (s : State) (b : BlockNo) (p : Nat) (v : Byte) : (s.writePoolByte b p v).inputs = s.inputs := rfl
@[simp] theorem writePoolByte_bus (s : State) (b : BlockNo) (p : Nat) (v : Byte) : (s.writePoolByte b p v).bus = s.bus := rfl
@[simp] theorem writePoolByte_hwclkLow (s : State) (b : BlockNo) (p : Nat) (v : Byte) : (s.writePoolByte b p v).hwclkLow = s.hwclkLow := rfl
@[simp] theorem writePoolByte_dataHeld (s : State) (b : BlockNo) (p : Nat) (v : Byte) : (s.writePoolByte b p v).dataHeld = s.dataHeld := rfl
@[simp] theorem writePoolByte_resetn (s : State) (b : BlockNo) (p : Nat) (v : Byte) : (s.writePoolByte b p v).resetn = s.resetn := rfl
@[simp] theorem writePoolByte_hwsense (s : State) (b : BlockNo) (p : Nat) (v : Byte) : (s.writePoolByte b p v).hwsense = s.hwsense := rfl
@[simp] theorem writePoolByte_dataSample (s : State) (b : BlockNo) (p : Nat) (v : Byte) : (s.writePoolByte b p v).dataSample = s.dataSample := rfl
@[simp] theorem writePoolByte_readData (s : State) (b : BlockNo) (p : Nat) (v : Byte) : (s.writePoolByte b p v).readData = s.readData := rfl
@[simp] theorem writePoolByte_cmd (s : State) (b : BlockNo) (p : Nat) (v : Byte) : (s.writePoolByte b p v).cmd = s.cmd := rfl
@[simp] theorem writePoolByte_cfgReject (s : State) (b : BlockNo) (p : Nat) (v : Byte) : (s.writePoolByte b p v).cfgReject = s.cfgReject := rfl
@[simp] theorem writePoolByte_mapBusy (s : State) (b : BlockNo) (p : Nat) (v : Byte) : (s.writePoolByte b p v).mapBusy = s.mapBusy := rfl
@[simp] theorem writePoolByte_chsel (s : State) (b : BlockNo) (p : Nat) (v : Byte) : (s.writePoolByte b p v).chsel = s.chsel := rfl
@[simp] theorem writePoolByte_tim (s : State) (b : BlockNo) (p : Nat) (v : Byte) : (s.writePoolByte b p v).tim = s.tim := rfl
@[simp] theorem writePoolByte_gen (s : State) (b : BlockNo) (p : Nat) (v : Byte) : (s.writePoolByte b p v).gen = s.gen := rfl
@[simp] theorem writePoolByte_slot (s : State) (b : BlockNo) (p : Nat) (v : Byte) : (s.writePoolByte b p v).slot = s.slot := rfl
@[simp] theorem writePoolByte_map (s : State) (b : BlockNo) (p : Nat) (v : Byte) : (s.writePoolByte b p v).map = s.map := rfl
@[simp] theorem writePoolByte_chans (s : State) (b : BlockNo) (p : Nat) (v : Byte) : (s.writePoolByte b p v).chans = s.chans := rfl
@[simp] theorem writePoolByte_ring (s : State) (b : BlockNo) (p : Nat) (v : Byte) : (s.writePoolByte b p v).ring = s.ring := rfl
@[simp] theorem writePoolByte_ev (s : State) (b : BlockNo) (p : Nat) (v : Byte) : (s.writePoolByte b p v).ev = s.ev := rfl
@[simp] theorem writePoolByte_arb (s : State) (b : BlockNo) (p : Nat) (v : Byte) : (s.writePoolByte b p v).arb = s.arb := rfl

/-! ## driveData -/

@[simp] theorem driveData_pending (s : State) (v : Word) : (s.driveData v).pending = s.pending := rfl
@[simp] theorem driveData_inputs (s : State) (v : Word) : (s.driveData v).inputs = s.inputs := rfl
@[simp] theorem driveData_bus (s : State) (v : Word) : (s.driveData v).bus = s.bus := rfl
@[simp] theorem driveData_hwclkLow (s : State) (v : Word) : (s.driveData v).hwclkLow = s.hwclkLow := rfl
@[simp] theorem driveData_dataHeld (s : State) (v : Word) : (s.driveData v).dataHeld = s.dataHeld := rfl
@[simp] theorem driveData_resetn (s : State) (v : Word) : (s.driveData v).resetn = s.resetn := rfl
@[simp] theorem driveData_hwsense (s : State) (v : Word) : (s.driveData v).hwsense = s.hwsense := rfl
@[simp] theorem driveData_dataSample (s : State) (v : Word) : (s.driveData v).dataSample = s.dataSample := rfl
@[simp] theorem driveData_cmd (s : State) (v : Word) : (s.driveData v).cmd = s.cmd := rfl
@[simp] theorem driveData_cfgReject (s : State) (v : Word) : (s.driveData v).cfgReject = s.cfgReject := rfl
@[simp] theorem driveData_mapBusy (s : State) (v : Word) : (s.driveData v).mapBusy = s.mapBusy := rfl
@[simp] theorem driveData_chsel (s : State) (v : Word) : (s.driveData v).chsel = s.chsel := rfl
@[simp] theorem driveData_tim (s : State) (v : Word) : (s.driveData v).tim = s.tim := rfl
@[simp] theorem driveData_gen (s : State) (v : Word) : (s.driveData v).gen = s.gen := rfl
@[simp] theorem driveData_slot (s : State) (v : Word) : (s.driveData v).slot = s.slot := rfl
@[simp] theorem driveData_map (s : State) (v : Word) : (s.driveData v).map = s.map := rfl
@[simp] theorem driveData_chans (s : State) (v : Word) : (s.driveData v).chans = s.chans := rfl
@[simp] theorem driveData_pool (s : State) (v : Word) : (s.driveData v).pool = s.pool := rfl
@[simp] theorem driveData_ring (s : State) (v : Word) : (s.driveData v).ring = s.ring := rfl
@[simp] theorem driveData_ev (s : State) (v : Word) : (s.driveData v).ev = s.ev := rfl
@[simp] theorem driveData_arb (s : State) (v : Word) : (s.driveData v).arb = s.arb := rfl

/-! ## reject -/

@[simp] theorem reject_pending (s : State) : (reject s).pending = s.pending := rfl
@[simp] theorem reject_inputs (s : State) : (reject s).inputs = s.inputs := rfl
@[simp] theorem reject_bus (s : State) : (reject s).bus = s.bus := rfl
@[simp] theorem reject_hwclkLow (s : State) : (reject s).hwclkLow = s.hwclkLow := rfl
@[simp] theorem reject_dataHeld (s : State) : (reject s).dataHeld = s.dataHeld := rfl
@[simp] theorem reject_resetn (s : State) : (reject s).resetn = s.resetn := rfl
@[simp] theorem reject_hwsense (s : State) : (reject s).hwsense = s.hwsense := rfl
@[simp] theorem reject_dataSample (s : State) : (reject s).dataSample = s.dataSample := rfl
@[simp] theorem reject_readData (s : State) : (reject s).readData = s.readData := rfl
@[simp] theorem reject_cmd (s : State) : (reject s).cmd = s.cmd := rfl
@[simp] theorem reject_mapBusy (s : State) : (reject s).mapBusy = s.mapBusy := rfl
@[simp] theorem reject_chsel (s : State) : (reject s).chsel = s.chsel := rfl
@[simp] theorem reject_tim (s : State) : (reject s).tim = s.tim := rfl
@[simp] theorem reject_gen (s : State) : (reject s).gen = s.gen := rfl
@[simp] theorem reject_slot (s : State) : (reject s).slot = s.slot := rfl
@[simp] theorem reject_map (s : State) : (reject s).map = s.map := rfl
@[simp] theorem reject_chans (s : State) : (reject s).chans = s.chans := rfl
@[simp] theorem reject_pool (s : State) : (reject s).pool = s.pool := rfl
@[simp] theorem reject_ring (s : State) : (reject s).ring = s.ring := rfl
@[simp] theorem reject_ev (s : State) : (reject s).ev = s.ev := rfl
@[simp] theorem reject_arb (s : State) : (reject s).arb = s.arb := rfl

/-! ## mapIgnored -/

@[simp] theorem mapIgnored_pending (s : State) : (mapIgnored s).pending = s.pending := rfl
@[simp] theorem mapIgnored_inputs (s : State) : (mapIgnored s).inputs = s.inputs := rfl
@[simp] theorem mapIgnored_bus (s : State) : (mapIgnored s).bus = s.bus := rfl
@[simp] theorem mapIgnored_hwclkLow (s : State) : (mapIgnored s).hwclkLow = s.hwclkLow := rfl
@[simp] theorem mapIgnored_dataHeld (s : State) : (mapIgnored s).dataHeld = s.dataHeld := rfl
@[simp] theorem mapIgnored_resetn (s : State) : (mapIgnored s).resetn = s.resetn := rfl
@[simp] theorem mapIgnored_hwsense (s : State) : (mapIgnored s).hwsense = s.hwsense := rfl
@[simp] theorem mapIgnored_dataSample (s : State) : (mapIgnored s).dataSample = s.dataSample := rfl
@[simp] theorem mapIgnored_readData (s : State) : (mapIgnored s).readData = s.readData := rfl
@[simp] theorem mapIgnored_cmd (s : State) : (mapIgnored s).cmd = s.cmd := rfl
@[simp] theorem mapIgnored_cfgReject (s : State) : (mapIgnored s).cfgReject = s.cfgReject := rfl
@[simp] theorem mapIgnored_chsel (s : State) : (mapIgnored s).chsel = s.chsel := rfl
@[simp] theorem mapIgnored_tim (s : State) : (mapIgnored s).tim = s.tim := rfl
@[simp] theorem mapIgnored_gen (s : State) : (mapIgnored s).gen = s.gen := rfl
@[simp] theorem mapIgnored_slot (s : State) : (mapIgnored s).slot = s.slot := rfl
@[simp] theorem mapIgnored_map (s : State) : (mapIgnored s).map = s.map := rfl
@[simp] theorem mapIgnored_chans (s : State) : (mapIgnored s).chans = s.chans := rfl
@[simp] theorem mapIgnored_pool (s : State) : (mapIgnored s).pool = s.pool := rfl
@[simp] theorem mapIgnored_ring (s : State) : (mapIgnored s).ring = s.ring := rfl
@[simp] theorem mapIgnored_ev (s : State) : (mapIgnored s).ev = s.ev := rfl
@[simp] theorem mapIgnored_arb (s : State) : (mapIgnored s).arb = s.arb := rfl

/-! ## raise -/

@[simp] theorem raise_pending (x : Source) (s : State) : (raise x s).pending = s.pending := rfl
@[simp] theorem raise_inputs (x : Source) (s : State) : (raise x s).inputs = s.inputs := rfl
@[simp] theorem raise_bus (x : Source) (s : State) : (raise x s).bus = s.bus := rfl
@[simp] theorem raise_hwclkLow (x : Source) (s : State) : (raise x s).hwclkLow = s.hwclkLow := rfl
@[simp] theorem raise_dataHeld (x : Source) (s : State) : (raise x s).dataHeld = s.dataHeld := rfl
@[simp] theorem raise_resetn (x : Source) (s : State) : (raise x s).resetn = s.resetn := rfl
@[simp] theorem raise_hwsense (x : Source) (s : State) : (raise x s).hwsense = s.hwsense := rfl
@[simp] theorem raise_dataSample (x : Source) (s : State) : (raise x s).dataSample = s.dataSample := rfl
@[simp] theorem raise_readData (x : Source) (s : State) : (raise x s).readData = s.readData := rfl
@[simp] theorem raise_cmd (x : Source) (s : State) : (raise x s).cmd = s.cmd := rfl
@[simp] theorem raise_cfgReject (x : Source) (s : State) : (raise x s).cfgReject = s.cfgReject := rfl
@[simp] theorem raise_mapBusy (x : Source) (s : State) : (raise x s).mapBusy = s.mapBusy := rfl
@[simp] theorem raise_chsel (x : Source) (s : State) : (raise x s).chsel = s.chsel := rfl
@[simp] theorem raise_tim (x : Source) (s : State) : (raise x s).tim = s.tim := rfl
@[simp] theorem raise_gen (x : Source) (s : State) : (raise x s).gen = s.gen := rfl
@[simp] theorem raise_slot (x : Source) (s : State) : (raise x s).slot = s.slot := rfl
@[simp] theorem raise_map (x : Source) (s : State) : (raise x s).map = s.map := rfl
@[simp] theorem raise_chans (x : Source) (s : State) : (raise x s).chans = s.chans := rfl
@[simp] theorem raise_pool (x : Source) (s : State) : (raise x s).pool = s.pool := rfl
@[simp] theorem raise_ring (x : Source) (s : State) : (raise x s).ring = s.ring := rfl
@[simp] theorem raise_arb (x : Source) (s : State) : (raise x s).arb = s.arb := rfl

/-! ## raiseDropped -/

@[simp] theorem raiseDropped_pending (c : Chan) (d : DropReason) (s : State) : (raiseDropped c d s).pending = s.pending := rfl
@[simp] theorem raiseDropped_inputs (c : Chan) (d : DropReason) (s : State) : (raiseDropped c d s).inputs = s.inputs := rfl
@[simp] theorem raiseDropped_bus (c : Chan) (d : DropReason) (s : State) : (raiseDropped c d s).bus = s.bus := rfl
@[simp] theorem raiseDropped_hwclkLow (c : Chan) (d : DropReason) (s : State) : (raiseDropped c d s).hwclkLow = s.hwclkLow := rfl
@[simp] theorem raiseDropped_dataHeld (c : Chan) (d : DropReason) (s : State) : (raiseDropped c d s).dataHeld = s.dataHeld := rfl
@[simp] theorem raiseDropped_resetn (c : Chan) (d : DropReason) (s : State) : (raiseDropped c d s).resetn = s.resetn := rfl
@[simp] theorem raiseDropped_hwsense (c : Chan) (d : DropReason) (s : State) : (raiseDropped c d s).hwsense = s.hwsense := rfl
@[simp] theorem raiseDropped_dataSample (c : Chan) (d : DropReason) (s : State) : (raiseDropped c d s).dataSample = s.dataSample := rfl
@[simp] theorem raiseDropped_readData (c : Chan) (d : DropReason) (s : State) : (raiseDropped c d s).readData = s.readData := rfl
@[simp] theorem raiseDropped_cmd (c : Chan) (d : DropReason) (s : State) : (raiseDropped c d s).cmd = s.cmd := rfl
@[simp] theorem raiseDropped_cfgReject (c : Chan) (d : DropReason) (s : State) : (raiseDropped c d s).cfgReject = s.cfgReject := rfl
@[simp] theorem raiseDropped_mapBusy (c : Chan) (d : DropReason) (s : State) : (raiseDropped c d s).mapBusy = s.mapBusy := rfl
@[simp] theorem raiseDropped_chsel (c : Chan) (d : DropReason) (s : State) : (raiseDropped c d s).chsel = s.chsel := rfl
@[simp] theorem raiseDropped_tim (c : Chan) (d : DropReason) (s : State) : (raiseDropped c d s).tim = s.tim := rfl
@[simp] theorem raiseDropped_gen (c : Chan) (d : DropReason) (s : State) : (raiseDropped c d s).gen = s.gen := rfl
@[simp] theorem raiseDropped_slot (c : Chan) (d : DropReason) (s : State) : (raiseDropped c d s).slot = s.slot := rfl
@[simp] theorem raiseDropped_map (c : Chan) (d : DropReason) (s : State) : (raiseDropped c d s).map = s.map := rfl
@[simp] theorem raiseDropped_chans (c : Chan) (d : DropReason) (s : State) : (raiseDropped c d s).chans = s.chans := rfl
@[simp] theorem raiseDropped_pool (c : Chan) (d : DropReason) (s : State) : (raiseDropped c d s).pool = s.pool := rfl
@[simp] theorem raiseDropped_ring (c : Chan) (d : DropReason) (s : State) : (raiseDropped c d s).ring = s.ring := rfl
@[simp] theorem raiseDropped_arb (c : Chan) (d : DropReason) (s : State) : (raiseDropped c d s).arb = s.arb := rfl

/-! ## raiseRefused -/

@[simp] theorem raiseRefused_pending (d : Reason) (s : State) : (raiseRefused d s).pending = s.pending := rfl
@[simp] theorem raiseRefused_inputs (d : Reason) (s : State) : (raiseRefused d s).inputs = s.inputs := rfl
@[simp] theorem raiseRefused_bus (d : Reason) (s : State) : (raiseRefused d s).bus = s.bus := rfl
@[simp] theorem raiseRefused_hwclkLow (d : Reason) (s : State) : (raiseRefused d s).hwclkLow = s.hwclkLow := rfl
@[simp] theorem raiseRefused_dataHeld (d : Reason) (s : State) : (raiseRefused d s).dataHeld = s.dataHeld := rfl
@[simp] theorem raiseRefused_resetn (d : Reason) (s : State) : (raiseRefused d s).resetn = s.resetn := rfl
@[simp] theorem raiseRefused_hwsense (d : Reason) (s : State) : (raiseRefused d s).hwsense = s.hwsense := rfl
@[simp] theorem raiseRefused_dataSample (d : Reason) (s : State) : (raiseRefused d s).dataSample = s.dataSample := rfl
@[simp] theorem raiseRefused_readData (d : Reason) (s : State) : (raiseRefused d s).readData = s.readData := rfl
@[simp] theorem raiseRefused_cmd (d : Reason) (s : State) : (raiseRefused d s).cmd = s.cmd := rfl
@[simp] theorem raiseRefused_cfgReject (d : Reason) (s : State) : (raiseRefused d s).cfgReject = s.cfgReject := rfl
@[simp] theorem raiseRefused_mapBusy (d : Reason) (s : State) : (raiseRefused d s).mapBusy = s.mapBusy := rfl
@[simp] theorem raiseRefused_chsel (d : Reason) (s : State) : (raiseRefused d s).chsel = s.chsel := rfl
@[simp] theorem raiseRefused_tim (d : Reason) (s : State) : (raiseRefused d s).tim = s.tim := rfl
@[simp] theorem raiseRefused_gen (d : Reason) (s : State) : (raiseRefused d s).gen = s.gen := rfl
@[simp] theorem raiseRefused_slot (d : Reason) (s : State) : (raiseRefused d s).slot = s.slot := rfl
@[simp] theorem raiseRefused_map (d : Reason) (s : State) : (raiseRefused d s).map = s.map := rfl
@[simp] theorem raiseRefused_chans (d : Reason) (s : State) : (raiseRefused d s).chans = s.chans := rfl
@[simp] theorem raiseRefused_pool (d : Reason) (s : State) : (raiseRefused d s).pool = s.pool := rfl
@[simp] theorem raiseRefused_ring (d : Reason) (s : State) : (raiseRefused d s).ring = s.ring := rfl
@[simp] theorem raiseRefused_arb (d : Reason) (s : State) : (raiseRefused d s).arb = s.arb := rfl

/-! ## setCmd -/

@[simp] theorem setCmd_pending (a : CmdResult) (b : Reason) (k : BitVec 8) (s : State) : (setCmd a b k s).pending = s.pending := rfl
@[simp] theorem setCmd_inputs (a : CmdResult) (b : Reason) (k : BitVec 8) (s : State) : (setCmd a b k s).inputs = s.inputs := rfl
@[simp] theorem setCmd_bus (a : CmdResult) (b : Reason) (k : BitVec 8) (s : State) : (setCmd a b k s).bus = s.bus := rfl
@[simp] theorem setCmd_hwclkLow (a : CmdResult) (b : Reason) (k : BitVec 8) (s : State) : (setCmd a b k s).hwclkLow = s.hwclkLow := rfl
@[simp] theorem setCmd_dataHeld (a : CmdResult) (b : Reason) (k : BitVec 8) (s : State) : (setCmd a b k s).dataHeld = s.dataHeld := rfl
@[simp] theorem setCmd_resetn (a : CmdResult) (b : Reason) (k : BitVec 8) (s : State) : (setCmd a b k s).resetn = s.resetn := rfl
@[simp] theorem setCmd_hwsense (a : CmdResult) (b : Reason) (k : BitVec 8) (s : State) : (setCmd a b k s).hwsense = s.hwsense := rfl
@[simp] theorem setCmd_dataSample (a : CmdResult) (b : Reason) (k : BitVec 8) (s : State) : (setCmd a b k s).dataSample = s.dataSample := rfl
@[simp] theorem setCmd_readData (a : CmdResult) (b : Reason) (k : BitVec 8) (s : State) : (setCmd a b k s).readData = s.readData := rfl
@[simp] theorem setCmd_cfgReject (a : CmdResult) (b : Reason) (k : BitVec 8) (s : State) : (setCmd a b k s).cfgReject = s.cfgReject := rfl
@[simp] theorem setCmd_mapBusy (a : CmdResult) (b : Reason) (k : BitVec 8) (s : State) : (setCmd a b k s).mapBusy = s.mapBusy := rfl
@[simp] theorem setCmd_chsel (a : CmdResult) (b : Reason) (k : BitVec 8) (s : State) : (setCmd a b k s).chsel = s.chsel := rfl
@[simp] theorem setCmd_tim (a : CmdResult) (b : Reason) (k : BitVec 8) (s : State) : (setCmd a b k s).tim = s.tim := rfl
@[simp] theorem setCmd_gen (a : CmdResult) (b : Reason) (k : BitVec 8) (s : State) : (setCmd a b k s).gen = s.gen := rfl
@[simp] theorem setCmd_slot (a : CmdResult) (b : Reason) (k : BitVec 8) (s : State) : (setCmd a b k s).slot = s.slot := rfl
@[simp] theorem setCmd_map (a : CmdResult) (b : Reason) (k : BitVec 8) (s : State) : (setCmd a b k s).map = s.map := rfl
@[simp] theorem setCmd_chans (a : CmdResult) (b : Reason) (k : BitVec 8) (s : State) : (setCmd a b k s).chans = s.chans := rfl
@[simp] theorem setCmd_pool (a : CmdResult) (b : Reason) (k : BitVec 8) (s : State) : (setCmd a b k s).pool = s.pool := rfl
@[simp] theorem setCmd_ring (a : CmdResult) (b : Reason) (k : BitVec 8) (s : State) : (setCmd a b k s).ring = s.ring := rfl
@[simp] theorem setCmd_ev (a : CmdResult) (b : Reason) (k : BitVec 8) (s : State) : (setCmd a b k s).ev = s.ev := rfl
@[simp] theorem setCmd_arb (a : CmdResult) (b : Reason) (k : BitVec 8) (s : State) : (setCmd a b k s).arb = s.arb := rfl

/-! ## takeReservation -/

@[simp] theorem takeReservation_pending (s : State) : (takeReservation s).pending = s.pending := rfl
@[simp] theorem takeReservation_inputs (s : State) : (takeReservation s).inputs = s.inputs := rfl
@[simp] theorem takeReservation_bus (s : State) : (takeReservation s).bus = s.bus := rfl
@[simp] theorem takeReservation_hwclkLow (s : State) : (takeReservation s).hwclkLow = s.hwclkLow := rfl
@[simp] theorem takeReservation_dataHeld (s : State) : (takeReservation s).dataHeld = s.dataHeld := rfl
@[simp] theorem takeReservation_resetn (s : State) : (takeReservation s).resetn = s.resetn := rfl
@[simp] theorem takeReservation_hwsense (s : State) : (takeReservation s).hwsense = s.hwsense := rfl
@[simp] theorem takeReservation_dataSample (s : State) : (takeReservation s).dataSample = s.dataSample := rfl
@[simp] theorem takeReservation_readData (s : State) : (takeReservation s).readData = s.readData := rfl
@[simp] theorem takeReservation_cmd (s : State) : (takeReservation s).cmd = s.cmd := rfl
@[simp] theorem takeReservation_cfgReject (s : State) : (takeReservation s).cfgReject = s.cfgReject := rfl
@[simp] theorem takeReservation_mapBusy (s : State) : (takeReservation s).mapBusy = s.mapBusy := rfl
@[simp] theorem takeReservation_chsel (s : State) : (takeReservation s).chsel = s.chsel := rfl
@[simp] theorem takeReservation_tim (s : State) : (takeReservation s).tim = s.tim := rfl
@[simp] theorem takeReservation_gen (s : State) : (takeReservation s).gen = s.gen := rfl
@[simp] theorem takeReservation_slot (s : State) : (takeReservation s).slot = s.slot := rfl
@[simp] theorem takeReservation_map (s : State) : (takeReservation s).map = s.map := rfl
@[simp] theorem takeReservation_chans (s : State) : (takeReservation s).chans = s.chans := rfl
@[simp] theorem takeReservation_pool (s : State) : (takeReservation s).pool = s.pool := rfl
@[simp] theorem takeReservation_ev (s : State) : (takeReservation s).ev = s.ev := rfl
@[simp] theorem takeReservation_arb (s : State) : (takeReservation s).arb = s.arb := rfl

/-! ## returnReservation -/

@[simp] theorem returnReservation_pending (s : State) : (returnReservation s).pending = s.pending := rfl
@[simp] theorem returnReservation_inputs (s : State) : (returnReservation s).inputs = s.inputs := rfl
@[simp] theorem returnReservation_bus (s : State) : (returnReservation s).bus = s.bus := rfl
@[simp] theorem returnReservation_hwclkLow (s : State) : (returnReservation s).hwclkLow = s.hwclkLow := rfl
@[simp] theorem returnReservation_dataHeld (s : State) : (returnReservation s).dataHeld = s.dataHeld := rfl
@[simp] theorem returnReservation_resetn (s : State) : (returnReservation s).resetn = s.resetn := rfl
@[simp] theorem returnReservation_hwsense (s : State) : (returnReservation s).hwsense = s.hwsense := rfl
@[simp] theorem returnReservation_dataSample (s : State) : (returnReservation s).dataSample = s.dataSample := rfl
@[simp] theorem returnReservation_readData (s : State) : (returnReservation s).readData = s.readData := rfl
@[simp] theorem returnReservation_cmd (s : State) : (returnReservation s).cmd = s.cmd := rfl
@[simp] theorem returnReservation_cfgReject (s : State) : (returnReservation s).cfgReject = s.cfgReject := rfl
@[simp] theorem returnReservation_mapBusy (s : State) : (returnReservation s).mapBusy = s.mapBusy := rfl
@[simp] theorem returnReservation_chsel (s : State) : (returnReservation s).chsel = s.chsel := rfl
@[simp] theorem returnReservation_tim (s : State) : (returnReservation s).tim = s.tim := rfl
@[simp] theorem returnReservation_gen (s : State) : (returnReservation s).gen = s.gen := rfl
@[simp] theorem returnReservation_slot (s : State) : (returnReservation s).slot = s.slot := rfl
@[simp] theorem returnReservation_map (s : State) : (returnReservation s).map = s.map := rfl
@[simp] theorem returnReservation_chans (s : State) : (returnReservation s).chans = s.chans := rfl
@[simp] theorem returnReservation_pool (s : State) : (returnReservation s).pool = s.pool := rfl
@[simp] theorem returnReservation_ev (s : State) : (returnReservation s).ev = s.ev := rfl
@[simp] theorem returnReservation_arb (s : State) : (returnReservation s).arb = s.arb := rfl

/-! ## countFrame -/

@[simp] theorem countFrame_pending (s : State) : (countFrame s).pending = s.pending := rfl
@[simp] theorem countFrame_inputs (s : State) : (countFrame s).inputs = s.inputs := rfl
@[simp] theorem countFrame_bus (s : State) : (countFrame s).bus = s.bus := rfl
@[simp] theorem countFrame_hwclkLow (s : State) : (countFrame s).hwclkLow = s.hwclkLow := rfl
@[simp] theorem countFrame_dataHeld (s : State) : (countFrame s).dataHeld = s.dataHeld := rfl
@[simp] theorem countFrame_resetn (s : State) : (countFrame s).resetn = s.resetn := rfl
@[simp] theorem countFrame_hwsense (s : State) : (countFrame s).hwsense = s.hwsense := rfl
@[simp] theorem countFrame_dataSample (s : State) : (countFrame s).dataSample = s.dataSample := rfl
@[simp] theorem countFrame_readData (s : State) : (countFrame s).readData = s.readData := rfl
@[simp] theorem countFrame_cmd (s : State) : (countFrame s).cmd = s.cmd := rfl
@[simp] theorem countFrame_cfgReject (s : State) : (countFrame s).cfgReject = s.cfgReject := rfl
@[simp] theorem countFrame_mapBusy (s : State) : (countFrame s).mapBusy = s.mapBusy := rfl
@[simp] theorem countFrame_chsel (s : State) : (countFrame s).chsel = s.chsel := rfl
@[simp] theorem countFrame_gen (s : State) : (countFrame s).gen = s.gen := rfl
@[simp] theorem countFrame_slot (s : State) : (countFrame s).slot = s.slot := rfl
@[simp] theorem countFrame_map (s : State) : (countFrame s).map = s.map := rfl
@[simp] theorem countFrame_chans (s : State) : (countFrame s).chans = s.chans := rfl
@[simp] theorem countFrame_pool (s : State) : (countFrame s).pool = s.pool := rfl
@[simp] theorem countFrame_ring (s : State) : (countFrame s).ring = s.ring := rfl
@[simp] theorem countFrame_ev (s : State) : (countFrame s).ev = s.ev := rfl
@[simp] theorem countFrame_arb (s : State) : (countFrame s).arb = s.arb := rfl

/-! ## Channels are read from the field chans alone -/

theorem chan_congr {s t : State} (h : t.chans = s.chans) (c : Chan) : t.chan c = s.chan c := by simp [State.chan, h]

@[simp] theorem chan_writePoolByte (s : State) (b : BlockNo) (p : Nat) (v : Byte) (c : Chan) : (s.writePoolByte b p v).chan c = s.chan c := rfl
@[simp] theorem chan_driveData (s : State) (v : Word) (c : Chan) : (s.driveData v).chan c = s.chan c := rfl
@[simp] theorem chan_reject (s : State) (c : Chan) : (reject s).chan c = s.chan c := rfl
@[simp] theorem chan_mapIgnored (s : State) (c : Chan) : (mapIgnored s).chan c = s.chan c := rfl
@[simp] theorem chan_raise (x : Source) (s : State) (c : Chan) : (raise x s).chan c = s.chan c := rfl
@[simp] theorem chan_raiseDropped (k : Chan) (d : DropReason) (s : State) (c : Chan) : (raiseDropped k d s).chan c = s.chan c := rfl
@[simp] theorem chan_raiseRefused (d : Reason) (s : State) (c : Chan) : (raiseRefused d s).chan c = s.chan c := rfl
@[simp] theorem chan_setCmd (a : CmdResult) (b : Reason) (k : BitVec 8) (s : State) (c : Chan) : (setCmd a b k s).chan c = s.chan c := rfl
@[simp] theorem chan_takeReservation (s : State) (c : Chan) : (takeReservation s).chan c = s.chan c := rfl
@[simp] theorem chan_returnReservation (s : State) (c : Chan) : (returnReservation s).chan c = s.chan c := rfl
@[simp] theorem chan_countFrame (s : State) (c : Chan) : (countFrame s).chan c = s.chan c := rfl

/-! ## The gate of RESETn -/

@[simp] theorem outOfReset_high (f : State → State) {s : State} (h : s.resetn = true) : outOfReset f s = f s := by
  simp [outOfReset, h]

@[simp] theorem outOfReset_low (f : State → State) {s : State} (h : s.resetn = false) : outOfReset f s = s := by
  simp [outOfReset, h]

end Sys2Proof.Machine
end

