-- ==== Sys2Proof/Laws/Together.lean ====
section
/-! SUPPORT. Happenings that fall together: `permute` gives an order of the list, and what each happening keeps, all of them
keep in whatever order they are taken. -/

namespace Sys2Proof.Machine

open Sys2Proof

theorem insertAt_perm {α : Type} (l : List α) (k : Nat) (a : α) : (insertAt l k a).Perm (a :: l) := by
  induction l generalizing k with
  | nil => simp [insertAt]
  | cons b bs ih =>
    by_cases h : k = 0
    · simp [insertAt, h]
    · simp only [insertAt, h, if_false]
      exact ((ih (k - 1)).cons b).trans (List.Perm.swap a b bs)

/-- Whatever the number, the happenings are the same ones. -/
theorem permute_perm {α : Type} (n : Nat) (l : List α) : (permute n l).Perm l := by
  induction l generalizing n with
  | nil => simp [permute]
  | cons a l ih => exact (insertAt_perm _ _ a).trans ((ih _).cons a)

@[simp] theorem takeAll_nil (s : State) : takeAll [] s = s := rfl

@[simp] theorem takeAll_cons (f : State → State) (l : List (State → State)) (s : State) :
    takeAll (f :: l) s = takeAll l (f s) := rfl

theorem takeAll_append (l m : List (State → State)) (s : State) : takeAll (l ++ m) s = takeAll m (takeAll l s) := by
  simp [takeAll, List.foldl_append]

/-- What every happening of a list keeps, the whole list keeps. -/
theorem takeAll_keeps {P : State → Prop} {l : List (State → State)} (h : ∀ f ∈ l, ∀ s, P s → P (f s)) {s : State}
    (hs : P s) : P (takeAll l s) := by
  induction l generalizing s with
  | nil => exact hs
  | cons f l ih =>
    exact ih (fun g hg => h g (List.mem_cons_of_mem _ hg)) (h f (List.mem_cons_self ..) s hs)

/-- What every happening keeps, and the model's own counter does not touch, they keep together in every order. -/
theorem takeTogether_keeps {P : State → Prop} {l : List (State → State)} (h : ∀ f ∈ l, ∀ s, P s → P (f s))
    (ha : ∀ s : State, P s → P { s with arb := s.arb + 1 }) (isOpen : Bool) {s : State} (hs : P s) :
    P (takeTogether isOpen l s) := by
  unfold takeTogether
  split
  · exact takeAll_keeps (fun f hf => h f ((permute_perm _ _).mem_iff.mp hf)) (ha s hs)
  · exact takeAll_keeps h hs

/-- A function of the state that no happening changes, and that does not read the model's own counter, is unchanged. -/
theorem takeTogether_eq {α : Type} (g : State → α) {l : List (State → State)} (h : ∀ f ∈ l, ∀ s, g (f s) = g s)
    (ha : ∀ s : State, g { s with arb := s.arb + 1 } = g s) (isOpen : Bool) (s : State) :
    g (takeTogether isOpen l s) = g s :=
  takeTogether_keeps (P := fun t => g t = g s) (fun f hf t ht => (h f hf t).trans ht) (fun t ht => (ha t).trans ht)
    isOpen rfl

/-- The same for happenings taken as listed. -/
theorem takeAll_eq {α : Type} (g : State → α) {l : List (State → State)} (h : ∀ f ∈ l, ∀ s, g (f s) = g s) (s : State) :
    g (takeAll l s) = g s :=
  takeAll_keeps (P := fun t => g t = g s) (fun f hf t ht => (h f hf t).trans ht) rfl

/-- A happening that occurs once and alone changes a function of the state has its effect on it, in every order; the others
keep the function. -/
theorem takeAll_once {α : Type} (g : State → α) (k : α → α) {f : State → State} (hf : ∀ s, g (f s) = k (g s))
    {l m : List (State → State)} (hp : l.Perm (f :: m)) (h : ∀ f' ∈ m, ∀ s, g (f' s) = g s) (s : State) :
    g (takeAll l s) = k (g s) := by
  have hmem : f ∈ l := hp.mem_iff.mpr (List.mem_cons_self ..)
  obtain ⟨p, q, rfl⟩ := List.append_of_mem hmem
  have hpq : (p ++ q).Perm m := by
    have h1 : (f :: (p ++ q)).Perm (f :: m) := List.perm_middle.symm.trans hp
    exact h1.cons_inv
  rw [takeAll_append, takeAll_cons,
    takeAll_eq g (fun f' hf' t => h f' (hpq.mem_iff.mp (List.mem_append_right _ hf')) t), hf,
    takeAll_eq g (fun f' hf' t => h f' (hpq.mem_iff.mp (List.mem_append_left _ hf')) t)]

/-- The same for happenings that fall together. -/
theorem takeTogether_once {α : Type} (g : State → α) (k : α → α) {f : State → State} (hf : ∀ s, g (f s) = k (g s))
    {l m : List (State → State)} (hp : l.Perm (f :: m)) (h : ∀ f' ∈ m, ∀ s, g (f' s) = g s)
    (ha : ∀ s : State, g { s with arb := s.arb + 1 } = g s) (isOpen : Bool) (s : State) :
    g (takeTogether isOpen l s) = k (g s) := by
  unfold takeTogether
  split
  · rw [takeAll_once g k hf ((permute_perm _ _).trans hp) h, ha]
  · exact takeAll_once g k hf hp h s

theorem mem_channels (c : Chan) : c ∈ channels := by
  fin_cases c <;> simp [channels]

theorem channels_nodup : channels.Nodup := by decide

/-- The list of the channels with channel c first. -/
theorem channels_perm (c : Chan) : channels.Perm (c :: channels.erase c) := List.perm_cons_erase (mem_channels c)

theorem not_mem_erase (c : Chan) : c ∉ channels.erase c := channels_nodup.not_mem_erase

end Sys2Proof.Machine
end

