-- ==== Sys2Proof/Laws/Flow.lean ====
section
/-! SUPPORT. What the shared operations of flow control do, each said once: an evaluation of the local pause, of the QUOTA cause
and of the pool-low condition (spec 08, R142 to R146; 06, R106), and the steps of a frame boundary (R147, R154). -/

namespace Sys2Proof.Machine

open Sys2Proof

/-! ## The local pause -/

/-- A channel after its local pause is evaluated (R145, R146). -/
def Channel.settled (x : Channel) : Channel :=
  if pauseWanted x = x.fl.asserted then x else { x with fl := pauseTransition (pauseWanted x) x.fl }

theorem evalPause_eq (c : Chan) (s : State) : evalPause c s = s.setChan c (s.chan c).settled := by
  unfold evalPause Channel.settled
  by_cases h : pauseWanted (s.chan c) = (s.chan c).fl.asserted <;> simp [h, setFl_eq]

@[simp] theorem settled_cfg (x : Channel) : x.settled.cfg = x.cfg := by unfold Channel.settled; split <;> rfl
@[simp] theorem settled_peer (x : Channel) : x.settled.peer = x.peer := by unfold Channel.settled; split <;> rfl
@[simp] theorem settled_sticky (x : Channel) : x.settled.sticky = x.sticky := by unfold Channel.settled; split <;> rfl
@[simp] theorem settled_tx (x : Channel) : x.settled.tx = x.tx := by unfold Channel.settled; split <;> rfl
@[simp] theorem settled_rx (x : Channel) : x.settled.rx = x.rx := by unfold Channel.settled; split <;> rfl
@[simp] theorem settled_held (x : Channel) : x.settled.held = x.held := by unfold Channel.settled; split <;> rfl
@[simp] theorem settled_quota (x : Channel) : x.settled.fl.quota = x.fl.quota := by unfold Channel.settled; split <;> rfl
@[simp] theorem settled_pool (x : Channel) : x.settled.fl.pool = x.fl.pool := by unfold Channel.settled; split <;> rfl
@[simp] theorem settled_host (x : Channel) : x.settled.fl.host = x.fl.host := by unfold Channel.settled; split <;> rfl
@[simp] theorem settled_flight (x : Channel) : x.settled.fl.flight = x.fl.flight := by
  unfold Channel.settled; split <;> rfl
@[simp] theorem settled_flHeld (x : Channel) : x.settled.fl.held = x.fl.held := by unfold Channel.settled; split <;> rfl
@[simp] theorem settled_holdCnt (x : Channel) : x.settled.fl.holdCnt = x.fl.holdCnt := by
  unfold Channel.settled; split <;> rfl

/-- After its evaluation the local pause is what the enables and the causes make it (R145). -/
@[simp] theorem settled_asserted (x : Channel) : x.settled.fl.asserted = pauseWanted x := by
  unfold Channel.settled
  split
  · next h => exact h.symm
  · rfl

/-- An evaluation that changes nothing leaves the channel as it was; a change is a transition (R146). -/
theorem settled_fl (x : Channel) :
    x.settled.fl = if pauseWanted x = x.fl.asserted then x.fl else pauseTransition (pauseWanted x) x.fl := by
  unfold Channel.settled; split <;> rfl

/-- An evaluation changes the flow unit alone. -/
theorem settled_frame (x : Channel) : { x.settled with fl := x.fl } = x := by
  unfold Channel.settled; split <;> rfl

@[simp] theorem pauseWanted_settled (x : Channel) : pauseWanted x.settled = pauseWanted x := by
  simp [pauseWanted]

/-- An owed flow word matches the local pause after an evaluation if it did before (R146). -/
theorem settled_owed (x : Channel) (hp : x.fl.pauseOwed = true → x.fl.asserted = true)
    (hr : x.fl.resumeOwed = true → x.fl.asserted = false) :
    (x.settled.fl.pauseOwed = true → x.settled.fl.asserted = true) ∧
    (x.settled.fl.resumeOwed = true → x.settled.fl.asserted = false) := by
  rw [settled_fl]
  split
  · exact ⟨hp, hr⟩
  · simp [pauseTransition]

/-! ## The causes -/

/-- A channel after its QUOTA cause and then its local pause are evaluated (R142). -/
def Channel.quotaSettled (x : Channel) : Channel := { x with fl := { x.fl with quota := quotaCause x } }.settled

theorem evalQuota_eq (c : Chan) (s : State) : evalQuota c s = s.setChan c (s.chan c).quotaSettled := by
  simp [evalQuota, evalPause_eq, setFl_eq, Channel.quotaSettled]

theorem quotaSettled_frame (x : Channel) : { x.quotaSettled with fl := x.fl } = x := by
  simp [Channel.quotaSettled]

@[simp] theorem quotaSettled_quota (x : Channel) : x.quotaSettled.fl.quota = quotaCause x := by simp [Channel.quotaSettled]
@[simp] theorem quotaSettled_held (x : Channel) : x.quotaSettled.held = x.held := by simp [Channel.quotaSettled]
@[simp] theorem quotaSettled_rx (x : Channel) : x.quotaSettled.rx = x.rx := by simp [Channel.quotaSettled]
@[simp] theorem quotaSettled_cfg (x : Channel) : x.quotaSettled.cfg = x.cfg := by simp [Channel.quotaSettled]

/-- A channel after its POOL cause is set or cleared and its local pause evaluated (R143). -/
def Channel.poolSettled (low : Bool) (x : Channel) : Channel := { x with fl := { x.fl with pool := low } }.settled

theorem setPoolCause_eq (low : Bool) (c : Chan) (s : State) :
    setPoolCause low c s = s.setChan c ((s.chan c).poolSettled low) := by
  simp [setPoolCause, evalPause_eq, setFl_eq, Channel.poolSettled]

theorem poolSettled_frame (low : Bool) (x : Channel) : { x.poolSettled low with fl := x.fl } = x := by
  simp [Channel.poolSettled]

@[simp] theorem poolSettled_pool (low : Bool) (x : Channel) : (x.poolSettled low).fl.pool = low := by
  simp [Channel.poolSettled]
@[simp] theorem poolSettled_held (low : Bool) (x : Channel) : (x.poolSettled low).held = x.held := by
  simp [Channel.poolSettled]
@[simp] theorem poolSettled_rx (low : Bool) (x : Channel) : (x.poolSettled low).rx = x.rx := by simp [Channel.poolSettled]
@[simp] theorem poolSettled_cfg (low : Bool) (x : Channel) : (x.poolSettled low).cfg = x.cfg := by
  simp [Channel.poolSettled]

theorem setHostCause_eq (on : Bool) (c : Chan) (s : State) :
    setHostCause on c s = s.setChan c ({ s.chan c with fl := { (s.chan c).fl with host := on } } : Channel).settled := by
  simp [setHostCause, evalPause_eq, setFl_eq]

/-! ## One step for every channel -/

/-- The state with every channel put through a function. -/
def State.mapChans (s : State) (f : Channel → Channel) : State := { s with chans := s.chans.map f }

@[simp] theorem chan_mapChans (s : State) (f : Channel → Channel) (c : Chan) : (s.mapChans f).chan c = f (s.chan c) := by
  show (s.chans.map f)[c.val] = f s.chans[c.val]
  simp

/-- What changes the channels alone is the state with other channels. -/
theorem eq_of_chans {s t : State} {v : Vector Channel 8} (h : { t with chans := s.chans } = s) (hc : t.chans = v) :
    t = { s with chans := v } := by
  subst hc; exact congrArg (fun u : State => { u with chans := t.chans }) h

/-- One step per channel of a list, each channel by the same function: the channels of the list go through it, and nothing else
changes. -/
theorem takeAll_setChan (f : Channel → Channel) (l : List Chan) (hl : l.Nodup) (s : State) :
    (∀ c, (takeAll (l.map fun c t => t.setChan c (f (t.chan c))) s).chan c = if c ∈ l then f (s.chan c) else s.chan c) ∧
    { takeAll (l.map fun c t => t.setChan c (f (t.chan c))) s with chans := s.chans } = s := by
  induction l generalizing s with
  | nil => simp
  | cons d l ih =>
    obtain ⟨hd, hl⟩ := List.nodup_cons.mp hl
    obtain ⟨h1, h2⟩ := ih hl (s.setChan d (f (s.chan d)))
    refine ⟨fun c => ?_, ?_⟩
    · rw [List.map_cons, takeAll_cons, h1]
      by_cases hc : c = d
      · subst hc; simp [hd]
      · simp [hc]
    · rw [List.map_cons, takeAll_cons]
      exact congrArg (fun t : State => { t with chans := s.chans }) h2

/-- A step that changes each channel by the same function puts every channel through it. -/
theorem takeAll_channels (f : Channel → Channel) (s : State) :
    takeAll (channels.map fun c t => t.setChan c (f (t.chan c))) s = s.mapChans f := by
  obtain ⟨h1, h2⟩ := takeAll_setChan f channels channels_nodup s
  have h3 : (takeAll (channels.map fun c t => t.setChan c (f (t.chan c))) s).chans = (s.mapChans f).chans :=
    chans_ext fun d => by rw [h1, if_pos (mem_channels d), chan_mapChans]
  exact eq_of_chans h2 h3

/-- An evaluation of the pool-low condition: unchanged, nothing happens; changed, the condition is stored and every channel's
POOL cause follows it (R106, R143). -/
theorem evalPoolLow_eq (s : State) :
    evalPoolLow s = if poolLow s.pool = s.pool.low then s
      else { s with pool := { s.pool with low := poolLow s.pool }
                    chans := s.chans.map (Channel.poolSettled (poolLow s.pool)) } := by
  unfold evalPoolLow
  split
  · rfl
  · have h : (fun c => setPoolCause (poolLow s.pool) c) =
        fun c (t : State) => t.setChan c ((t.chan c).poolSettled (poolLow s.pool)) := by
      funext c t; exact setPoolCause_eq _ c t
    have h' : setPoolCause (poolLow s.pool) =
        fun c (t : State) => t.setChan c ((t.chan c).poolSettled (poolLow s.pool)) := h
    rw [h', takeAll_channels]
    rfl

/-- A channel after an evaluation of the pool-low condition. -/
theorem evalPoolLow_chan (s : State) (c : Chan) :
    (evalPoolLow s).chan c =
      if poolLow s.pool = s.pool.low then s.chan c else (s.chan c).poolSettled (poolLow s.pool) := by
  rw [evalPoolLow_eq]
  split
  · rfl
  · exact chan_mapChans s _ c

/-- The pool after an evaluation of the pool-low condition. -/
theorem evalPoolLow_pool (s : State) : (evalPoolLow s).pool = { s.pool with low := poolLow s.pool } := by
  rw [evalPoolLow_eq]
  split
  · next h => rw [h]
  · rfl

/-- Nothing but the condition and the flow units changes. -/
theorem evalPoolLow_frame (s : State) : { evalPoolLow s with pool := s.pool, chans := s.chans } = s := by
  rw [evalPoolLow_eq]; split <;> rfl

theorem evalPoolLow_chan_frame (s : State) (c : Chan) : { (evalPoolLow s).chan c with fl := (s.chan c).fl } = s.chan c := by
  rw [evalPoolLow_chan]
  split
  · rfl
  · exact poolSettled_frame _ _

/-- A change of held(c) and of the free count: the QUOTA cause of channel c, then the pool-low condition (R106, R142). -/
theorem countsChanged_chan (c d : Chan) (s : State) :
    (countsChanged c s).chan d =
      let x := if d = c then (s.chan c).quotaSettled else s.chan d
      if poolLow s.pool = s.pool.low then x else x.poolSettled (poolLow s.pool) := by
  simp only [countsChanged, evalPoolLow_chan, evalQuota_eq, setChan_pool, chan_setChan]

theorem countsChanged_pool (c : Chan) (s : State) : (countsChanged c s).pool = { s.pool with low := poolLow s.pool } := by
  simp [countsChanged, evalPoolLow_pool, evalQuota_eq]

theorem countsChanged_frame (c : Chan) (s : State) : { countsChanged c s with pool := s.pool, chans := s.chans } = s := by
  rw [countsChanged, evalQuota_eq]
  exact congrArg (fun t : State => { t with chans := s.chans }) (evalPoolLow_frame (s.setChan c (s.chan c).quotaSettled))

theorem countsChanged_chan_frame (c d : Chan) (s : State) :
    { (countsChanged c s).chan d with fl := (s.chan d).fl } = s.chan d := by
  rw [countsChanged_chan]
  by_cases h : d = c
  · subst h
    simp only [if_true]
    split
    · exact quotaSettled_frame _
    · simp [Channel.poolSettled, Channel.quotaSettled]
  · simp only [h, if_false]
    split
    · rfl
    · exact poolSettled_frame _ _

/-! ## Steps of a frame boundary -/

/-- A channel after the refresh step of a frame boundary (R147). -/
def Channel.refreshed (x : Channel) : Channel :=
  if x.fl.asserted then
    if x.cfg.p ≤ x.fl.refresh + 1 then { x with fl := { x.fl with pauseOwed := true, refresh := 0 } }
    else { x with fl := { x.fl with refresh := x.fl.refresh + 1 } }
  else x

theorem refreshStep_eq (c : Chan) (s : State) : refreshStep c s = s.setChan c (s.chan c).refreshed := by
  unfold refreshStep Channel.refreshed refreshDue
  by_cases h : (s.chan c).fl.asserted = true
  · by_cases h' : (s.chan c).cfg.p ≤ (s.chan c).fl.refresh + 1 <;> simp [h, h', setFl_eq]
  · simp [h]

/-- A channel after the hold step of a frame boundary (R154). -/
def Channel.holdStepped (x : Channel) : Channel :=
  if x.fl.held then
    if x.cfg.h ≤ x.fl.holdCnt + 1 then { x with fl := { x.fl with held := false, holdCnt := 0 } }
    else { x with fl := { x.fl with holdCnt := x.fl.holdCnt + 1 } }
  else x

/-- The hold step: the channel, and HOLD_EXPIRED(c) where the hold expires (R154). -/
theorem holdStep_eq (c : Chan) (s : State) :
    holdStep c s = if holdDue (s.chan c) then raise (.holdExpired c) (s.setChan c (s.chan c).holdStepped)
      else s.setChan c (s.chan c).holdStepped := by
  unfold holdStep Channel.holdStepped holdDue
  by_cases h : (s.chan c).fl.held = true
  · by_cases h' : (s.chan c).cfg.h ≤ (s.chan c).fl.holdCnt + 1 <;> simp [h, h', setFl_eq]
  · simp [h]

end Sys2Proof.Machine
end

