-- ==== Sys2Proof/Laws/Blocks.lean ====
section
/-! SUPPORT. What the shared operations of the pool, the ring and the receive unit do, each said once: freeing a chain, granting a
block, ending, discarding and overrunning a message, and storing a byte (spec 06, R102, R103, R111, R115 to R117; 07, R129). -/

namespace Sys2Proof.Machine

open Sys2Proof

/-! ## Links and chains -/

/-- Clearing the links of some blocks clears those and no other (R103). -/
theorem clearLinks_get (links : Vector (Option BlockNo) 128) (bs : List BlockNo) (k : BlockNo) :
    (clearLinks links bs).get k = if k ∈ bs then none else links.get k := by
  induction bs generalizing links with
  | nil => simp [clearLinks]
  | cons b bs ih =>
    rw [show clearLinks links (b :: bs) = clearLinks (links.set b none) bs from rfl, ih]
    show (if k ∈ bs then none else (links.set b.val none b.isLt)[k.val]) = _
    rw [Vector.getElem_set]
    by_cases hk : k ∈ bs
    · simp [hk]
    · by_cases hb : b.val = k.val
      · have : k = b := Fin.ext hb.symm
        simp [this]
      · have : k ≠ b := fun e => hb (e ▸ rfl)
        simp only [hk, if_false, hb, List.mem_cons, this, false_or, if_false]
        rfl

/-- Reading a link after one is set. -/
theorem setLink_get (links : Vector (Option BlockNo) 128) (b k : BlockNo) (v : Option BlockNo) :
    (links.set b v).get k = if k = b then v else links.get k := by
  show (links.set b.val v b.isLt)[k.val] = _
  rw [Vector.getElem_set]
  by_cases h : b.val = k.val
  · have : k = b := Fin.ext h.symm
    simp [this]
  · have : k ≠ b := fun e => h (e ▸ rfl)
    simp [h, this]; rfl

@[simp] theorem chain_none (p : Pool) : p.chain none = [] := rfl

/-- A chain depends only on the links. -/
theorem chain_congr {p q : Pool} (h : p.links = q.links) (b : Option BlockNo) : p.chain b = q.chain b := by
  simp [Pool.chain, h]

/-- Links that agree on the blocks of a chain give the same chain. -/
theorem chainFrom_agree {l m : Vector (Option BlockNo) 128} (n : Nat) (b : Option BlockNo)
    (h : ∀ k ∈ chainFrom l n b, m.get k = l.get k) : chainFrom m n b = chainFrom l n b := by
  induction n generalizing b with
  | zero => rfl
  | succ n ih =>
    cases b with
    | none => rfl
    | some b =>
      have hb : m.get b = l.get b := h b (by simp [chainFrom])
      simp only [chainFrom, hb]
      rw [ih (l.get b) fun k hk => h k (by simp [chainFrom, hk])]

/-- No chain is longer than its bound. -/
theorem chainFrom_length_le (l : Vector (Option BlockNo) 128) (n : Nat) (b : Option BlockNo) :
    (chainFrom l n b).length ≤ n := by
  induction n generalizing b with
  | zero => simp [chainFrom]
  | succ n ih =>
    cases b with
    | none => simp [chainFrom]
    | some b => simpa [chainFrom] using ih (l.get b)

/-! ## Freeing a chain (R103) -/

/-- A channel that holds a number of blocks less, its causes evaluated. -/
def Channel.gaveBack (x : Channel) (n : Nat) : Channel :=
  if n = 0 then x else ({ x with held := x.held - n } : Channel).quotaSettled

/-- The state before the counts are evaluated: the chain on the free list, its links none. -/
theorem freeChain_eq (c : Chan) (first : Option BlockNo) (s : State) (h : s.pool.chain first ≠ []) :
    freeChain c first s = countsChanged c
      (({ s with pool := { s.pool with free := s.pool.free ++ s.pool.chain first
                                       links := clearLinks s.pool.links (s.pool.chain first) } } : State).setChan c
        { s.chan c with held := (s.chan c).held - (s.pool.chain first).length }) := by
  have h' : (s.pool.chain first).isEmpty = false := by
    cases hc : s.pool.chain first with
    | nil => exact absurd hc h
    | cons _ _ => rfl
  unfold freeChain
  simp only [h', Bool.false_eq_true, if_false]

/-- An absent chain frees nothing. -/
theorem freeChain_nil (c : Chan) (first : Option BlockNo) (s : State) (h : s.pool.chain first = []) :
    freeChain c first s = s := by
  simp [freeChain, h]

/-- The free list gets the chain at its tail, in chain order. -/
theorem freeChain_free (c : Chan) (first : Option BlockNo) (s : State) :
    (freeChain c first s).pool.free = s.pool.free ++ s.pool.chain first := by
  by_cases h : s.pool.chain first = []
  · simp [freeChain_nil c first s h, h]
  · rw [freeChain_eq c first s h, countsChanged_pool]; rfl

/-- The links of the chain become none and no other. -/
theorem freeChain_links (c : Chan) (first : Option BlockNo) (s : State) (k : BlockNo) :
    (freeChain c first s).pool.links.get k = if k ∈ s.pool.chain first then none else s.pool.links.get k := by
  by_cases h : s.pool.chain first = []
  · simp [freeChain_nil c first s h, h]
  · rw [freeChain_eq c first s h, countsChanged_pool]; exact clearLinks_get _ _ k

@[simp] theorem freeChain_mem (c : Chan) (first : Option BlockNo) (s : State) :
    (freeChain c first s).pool.mem = s.pool.mem := by
  by_cases h : s.pool.chain first = []
  · rw [freeChain_nil c first s h]
  · rw [freeChain_eq c first s h, countsChanged_pool]; rfl

/-- held(c) falls by the number of blocks, and no other channel's. -/
theorem freeChain_held (c d : Chan) (first : Option BlockNo) (s : State) :
    ((freeChain c first s).chan d).held =
      if d = c then (s.chan c).held - (s.pool.chain first).length else (s.chan d).held := by
  by_cases h : s.pool.chain first = []
  · rw [freeChain_nil c first s h, h]
    by_cases hd : d = c
    · subst hd; simp
    · simp [hd]
  · rw [freeChain_eq c first s h, countsChanged_chan]
    by_cases hd : d = c
    · subst hd
      simp only [if_true, chan_setChan_same]
      split <;> simp
    · simp only [hd, if_false, chan_setChan_other _ _ hd]
      split
      · rfl
      · exact poolSettled_held _ _

/-- Of every channel, freeing a chain changes the flow unit and held(c) alone. -/
theorem freeChain_chan_frame (c d : Chan) (first : Option BlockNo) (s : State) :
    { (freeChain c first s).chan d with fl := (s.chan d).fl, held := (s.chan d).held } = s.chan d := by
  by_cases h : s.pool.chain first = []
  · rw [freeChain_nil c first s h]
  · rw [freeChain_eq c first s h]
    have hf := congrArg (fun y : Channel => { y with fl := (s.chan d).fl, held := (s.chan d).held })
      (countsChanged_chan_frame c d
        (({ s with pool := { s.pool with free := s.pool.free ++ s.pool.chain first
                                         links := clearLinks s.pool.links (s.pool.chain first) } } : State).setChan c
          { s.chan c with held := (s.chan c).held - (s.pool.chain first).length }))
    refine Eq.trans hf ?_
    by_cases hd : d = c
    · subst hd; simp
    · simp only [chan_setChan_other _ _ hd]; rfl

/-- Freeing a chain changes nothing but the pool and the channels. -/
theorem freeChain_frame (c : Chan) (first : Option BlockNo) (s : State) :
    { freeChain c first s with pool := s.pool, chans := s.chans } = s := by
  by_cases h : s.pool.chain first = []
  · rw [freeChain_nil c first s h]
  · rw [freeChain_eq c first s h]
    exact congrArg (fun t : State => { t with pool := s.pool, chans := s.chans }) (countsChanged_frame c _)

@[simp] theorem freeChain_ring (c : Chan) (first : Option BlockNo) (s : State) : (freeChain c first s).ring = s.ring := by
  have h := congrArg State.ring (freeChain_frame c first s); exact h
@[simp] theorem freeChain_ev (c : Chan) (first : Option BlockNo) (s : State) : (freeChain c first s).ev = s.ev := by
  have h := congrArg State.ev (freeChain_frame c first s); exact h
@[simp] theorem freeChain_tim (c : Chan) (first : Option BlockNo) (s : State) : (freeChain c first s).tim = s.tim := by
  have h := congrArg State.tim (freeChain_frame c first s); exact h
@[simp] theorem freeChain_map (c : Chan) (first : Option BlockNo) (s : State) : (freeChain c first s).map = s.map := by
  have h := congrArg State.map (freeChain_frame c first s); exact h
@[simp] theorem freeChain_slot (c : Chan) (first : Option BlockNo) (s : State) : (freeChain c first s).slot = s.slot := by
  have h := congrArg State.slot (freeChain_frame c first s); exact h
@[simp] theorem freeChain_rx (c d : Chan) (first : Option BlockNo) (s : State) :
    ((freeChain c first s).chan d).rx = (s.chan d).rx := by
  have h := congrArg Channel.rx (freeChain_chan_frame c d first s); exact h
@[simp] theorem freeChain_tx (c d : Chan) (first : Option BlockNo) (s : State) :
    ((freeChain c first s).chan d).tx = (s.chan d).tx := by
  have h := congrArg Channel.tx (freeChain_chan_frame c d first s); exact h
@[simp] theorem freeChain_cfg (c d : Chan) (first : Option BlockNo) (s : State) :
    ((freeChain c first s).chan d).cfg = (s.chan d).cfg := by
  have h := congrArg Channel.cfg (freeChain_chan_frame c d first s); exact h
@[simp] theorem freeChain_peer (c d : Chan) (first : Option BlockNo) (s : State) :
    ((freeChain c first s).chan d).peer = (s.chan d).peer := by
  have h := congrArg Channel.peer (freeChain_chan_frame c d first s); exact h
@[simp] theorem freeChain_sticky (c d : Chan) (first : Option BlockNo) (s : State) :
    ((freeChain c first s).chan d).sticky = (s.chan d).sticky := by
  have h := congrArg Channel.sticky (freeChain_chan_frame c d first s); exact h

/-! ## A granted block (R102) -/

/-- The links after block b is granted: its own is none, and that of the current block, if there is one, is b. -/
def linkedTo (links : Vector (Option BlockNo) 128) (cur : Option BlockNo) (b : BlockNo) : Vector (Option BlockNo) 128 :=
  match cur with
  | none => links.set b none
  | some k => (links.set b none).set k (some b)

/-- The receive unit after block b is granted. -/
def RxUnit.given (u : RxUnit) (b : BlockNo) : RxUnit := { u with first := u.first.or (some b), cur := some b, fill := 0 }

theorem grant_eq (c : Chan) (b : BlockNo) (rest : List BlockNo) (s : State) :
    grant c b rest s = countsChanged c
      (({ s with pool := { s.pool with free := rest, links := linkedTo s.pool.links (s.chan c).rx.cur b } } : State).setChan c
        { s.chan c with held := (s.chan c).held + 1, rx := (s.chan c).rx.given b }) := by
  rfl

theorem grant_pool (c : Chan) (b : BlockNo) (rest : List BlockNo) (s : State) :
    (grant c b rest s).pool.free = rest ∧ (grant c b rest s).pool.links = linkedTo s.pool.links (s.chan c).rx.cur b ∧
    (grant c b rest s).pool.mem = s.pool.mem := by
  rw [grant_eq, countsChanged_pool]; exact ⟨rfl, rfl, rfl⟩

theorem grant_rx (c d : Chan) (b : BlockNo) (rest : List BlockNo) (s : State) :
    ((grant c b rest s).chan d).rx = if d = c then (s.chan c).rx.given b else (s.chan d).rx := by
  rw [grant_eq]
  have hf := congrArg Channel.rx (countsChanged_chan_frame c d
    (({ s with pool := { s.pool with free := rest, links := linkedTo s.pool.links (s.chan c).rx.cur b } } : State).setChan c
      { s.chan c with held := (s.chan c).held + 1, rx := (s.chan c).rx.given b }))
  refine Eq.trans hf ?_
  by_cases h : d = c
  · subst h; simp
  · simp only [h, if_false, chan_setChan_other _ _ h]; rfl

theorem grant_held (c d : Chan) (b : BlockNo) (rest : List BlockNo) (s : State) :
    ((grant c b rest s).chan d).held = if d = c then (s.chan c).held + 1 else (s.chan d).held := by
  rw [grant_eq]
  have hf := congrArg Channel.held (countsChanged_chan_frame c d
    (({ s with pool := { s.pool with free := rest, links := linkedTo s.pool.links (s.chan c).rx.cur b } } : State).setChan c
      { s.chan c with held := (s.chan c).held + 1, rx := (s.chan c).rx.given b }))
  refine Eq.trans hf ?_
  by_cases h : d = c
  · subst h; simp
  · simp only [h, if_false, chan_setChan_other _ _ h]; rfl

/-- A grant changes nothing but the pool and the channels. -/
theorem grant_frame (c : Chan) (b : BlockNo) (rest : List BlockNo) (s : State) :
    { grant c b rest s with pool := s.pool, chans := s.chans } = s := by
  rw [grant_eq]
  exact congrArg (fun t : State => { t with pool := s.pool, chans := s.chans }) (countsChanged_frame c _)

/-- Of the granted channel a grant changes the receive unit, the flow unit and held(c); of any other the flow unit. -/
theorem grant_chan_frame (c d : Chan) (b : BlockNo) (rest : List BlockNo) (s : State) :
    { (grant c b rest s).chan d with
      fl := (s.chan d).fl, held := (s.chan d).held, rx := (s.chan d).rx } = s.chan d := by
  rw [grant_eq]
  have hf := congrArg (fun y : Channel => { y with fl := (s.chan d).fl, held := (s.chan d).held, rx := (s.chan d).rx })
    (countsChanged_chan_frame c d
      (({ s with pool := { s.pool with free := rest, links := linkedTo s.pool.links (s.chan c).rx.cur b } } : State).setChan c
        { s.chan c with held := (s.chan c).held + 1, rx := (s.chan c).rx.given b }))
  refine Eq.trans hf ?_
  by_cases hd : d = c
  · subst hd; simp
  · simp only [chan_setChan_other _ _ hd]; rfl

/-! ## The end of a message (R115 to R118, R129) -/

/-- The ring after a descriptor joins its tail in place of its reservation (R129). -/
def Ring.completed (r : Ring) (d : Descriptor) : Ring :=
  { r with entries := r.entries ++ [d], reserved := r.reserved - 1, timer := 0 }

/-- Completion: the ring, the receive unit, and nothing else. -/
theorem complete_eq (c : Chan) (status : MsgStatus) (s : State) :
    complete c status s = ({ s with ring := s.ring.completed (descriptorOf c status s) } : State).setChan c
      { s.chan c with rx := { (s.chan c).rx.idled with seq := (s.chan c).rx.seq + 1 } } := rfl

/-- The receive unit after its message has ended with a closing cause (R115, R118). -/
def RxUnit.closed (u : RxUnit) : RxUnit := if u.st.holdsReservation then { u.idled with seq := u.seq + 1 } else
  if u.st.inProgress then u.idled else u

/-- The end of a message with a closing cause: the receive unit of the channel, and, where a reservation was held, the ring. -/
theorem closeMsg_eq (c : Chan) (cause : MsgStatus) (s : State) :
    closeMsg c cause s =
      ({ s with ring := match closingStatus (s.chan c).rx.st cause with
                        | some status => s.ring.completed (descriptorOf c status s)
                        | none => s.ring } : State).setChan c { s.chan c with rx := (s.chan c).rx.closed } := by
  unfold closeMsg RxUnit.closed
  cases h : (s.chan c).rx.st <;>
    simp [closingStatus, RxState.holdsReservation, RxState.inProgress, complete_eq, setRx_eq]
  exact (setChan_self s c).symm

theorem closed_st (u : RxUnit) : u.closed.st = .idle := by
  unfold RxUnit.closed
  cases h : u.st <;> simp [RxState.holdsReservation, RxState.inProgress, RxUnit.idled, h]

theorem closed_seq (u : RxUnit) : u.closed.seq = if u.st.holdsReservation then u.seq + 1 else u.seq := by
  unfold RxUnit.closed
  cases h : u.st <;> simp [RxState.holdsReservation, RxState.inProgress, RxUnit.idled]

/-- A discard frees the open chain, returns the reservation and idles the receive unit; nothing else changes (R117). -/
theorem discardMsg_held (c : Chan) (s : State) (h : (s.chan c).rx.st.holdsReservation = true) :
    discardMsg c s =
      ({ freeChain c (s.chan c).rx.first s with ring := { s.ring with reserved := s.ring.reserved - 1 } } : State).setChan c
        { (freeChain c (s.chan c).rx.first s).chan c with rx := (s.chan c).rx.idled } := by
  unfold discardMsg
  simp only [h, if_true, returnReservation, setRx_eq, freeChain_ring]
  have : (({ freeChain c (s.chan c).rx.first s with ring := { s.ring with reserved := s.ring.reserved - 1 } } :
      State).chan c) = (freeChain c (s.chan c).rx.first s).chan c := rfl
  rw [this, freeChain_rx]

theorem discardMsg_starved (c : Chan) (s : State) (h : (s.chan c).rx.st = .starved) :
    discardMsg c s = s.setChan c { s.chan c with rx := (s.chan c).rx.idled } := by
  simp [discardMsg, h, RxState.holdsReservation, RxState.inProgress, setRx_eq]

theorem discardMsg_idle (c : Chan) (s : State) (h : (s.chan c).rx.st = .idle) : discardMsg c s = s := by
  simp [discardMsg, h, RxState.holdsReservation, RxState.inProgress]

/-! ## Storing a byte (R111) -/

/-- At max_length the message is TRUNCATING and the byte discarded. -/
theorem storeByte_truncates (c : Chan) (b : Byte) (s : State) (h : (s.chan c).cfg.maxLen ≤ (s.chan c).rx.len) :
    storeByte c b s = s.setRx c { (s.chan c).rx with st := .truncating } := by
  simp [storeByte, h]

/-- With room in the current block the byte is stored there. -/
theorem storeByte_stores (c : Chan) (b : Byte) (s : State) (k : BlockNo) (h : (s.chan c).rx.len < (s.chan c).cfg.maxLen)
    (hk : (s.chan c).rx.cur = some k) (hf : (s.chan c).rx.fill < 32) : storeByte c b s = putByte c k b s := by
  simp [storeByte, Nat.not_le.mpr h, hk, hf]

/-- Without room, a refused block makes the message OVERRUN. -/
theorem storeByte_overruns (c : Chan) (b : Byte) (s : State) (h : (s.chan c).rx.len < (s.chan c).cfg.maxLen)
    (hk : (s.chan c).rx.cur = none ∨ 32 ≤ (s.chan c).rx.fill)
    (hr : (s.chan c).cfg.quota ≤ (s.chan c).held ∨ s.pool.free = []) : storeByte c b s = overrunMsg c s := by
  unfold storeByte
  simp only [Nat.not_le.mpr h, if_false]
  split
  · next k hk' hf =>
    rcases hk with hk | hk
    · simp [hk] at hk'
    · simp [Nat.not_lt.mpr hk] at hf
  · split
    · rfl
    · next k rest hfree =>
      rcases hr with hr | hr
      · simp [Nat.not_lt.mpr hr]
      · simp [hr] at hfree

/-- Without room, a granted block takes the byte at its first position. -/
theorem storeByte_grants (c : Chan) (b : Byte) (s : State) (m : BlockNo) (rest : List BlockNo)
    (h : (s.chan c).rx.len < (s.chan c).cfg.maxLen) (hk : (s.chan c).rx.cur = none ∨ 32 ≤ (s.chan c).rx.fill)
    (hq : (s.chan c).held < (s.chan c).cfg.quota) (hm : s.pool.free = m :: rest) :
    storeByte c b s = putByte c m b (grant c m rest s) := by
  unfold storeByte
  simp only [Nat.not_le.mpr h, if_false]
  split
  · next k hk' hf =>
    rcases hk with hk | hk
    · simp [hk] at hk'
    · simp [Nat.not_lt.mpr hk] at hf
  · simp [hm, hq]

end Sys2Proof.Machine
end

