-- ==== Sys2Proof/Laws/Aborts.lean ====
section
/-! SUPPORT. What the happenings do that reach every channel in one step, each said once: the traffic abort (spec 02, R37), the
switch notice and the switch (spec 03, R49, R53), and the gap count and peer presence of a frame boundary (06, R120; 04, R73). -/

namespace Sys2Proof.Machine

open Sys2Proof

/-! ## One happening per channel, in any order -/

theorem insertAt_map {α β : Type} (f : α → β) (l : List α) (k : Nat) (a : α) :
    insertAt (l.map f) k (f a) = (insertAt l k a).map f := by
  induction l generalizing k with
  | nil => rfl
  | cons b bs ih =>
    by_cases h : k = 0
    · simp [insertAt, h]
    · simp [insertAt, h, ih]

theorem permute_map {α β : Type} (f : α → β) (n : Nat) (l : List α) : permute n (l.map f) = (permute n l).map f := by
  induction l generalizing n with
  | nil => rfl
  | cons a l ih =>
    show insertAt (permute (n / ((l.map f).length + 1)) (l.map f)) (n % ((l.map f).length + 1)) (f a) = _
    rw [List.length_map, ih, insertAt_map]
    rfl

/-- A happening per channel that reads nothing of the state but that channel and `g`, and changes of the channels only its own:
whatever the order, every channel goes through its own. -/
theorem takeAll_chan {α : Type} (g : State → α) (F : α → Chan → Channel → Channel) (act : Chan → State → State)
    (hg : ∀ c s, g (act c s) = g s)
    (ha : ∀ c d s, (act c s).chan d = if d = c then F (g s) c (s.chan c) else s.chan d)
    (l : List Chan) (hl : l.Nodup) (s : State) (d : Chan) :
    (takeAll (l.map act) s).chan d = if d ∈ l then F (g s) d (s.chan d) else s.chan d := by
  induction l generalizing s with
  | nil => simp
  | cons c l ih =>
    obtain ⟨hc, hl⟩ := List.nodup_cons.mp hl
    rw [List.map_cons, takeAll_cons, ih hl, hg, ha]
    by_cases h : d = c
    · subst h; simp [hc]
    · simp [h]

/-- The same for happenings of all eight channels that fall together. -/
theorem takeTogether_chan {α : Type} (g : State → α) (F : α → Chan → Channel → Channel) (act : Chan → State → State)
    (hg : ∀ c s, g (act c s) = g s) (harb : ∀ s : State, g { s with arb := s.arb + 1 } = g s)
    (ha : ∀ c d s, (act c s).chan d = if d = c then F (g s) c (s.chan c) else s.chan d)
    (isOpen : Bool) (s : State) (d : Chan) :
    (takeTogether isOpen (channels.map act) s).chan d = F (g s) d (s.chan d) := by
  unfold takeTogether
  split
  · rw [permute_map, takeAll_chan g F act hg ha _ ((permute_perm _ _).nodup_iff.mpr channels_nodup), harb,
      if_pos ((permute_perm _ _).mem_iff.mpr (mem_channels d))]
    rfl
  · rw [takeAll_chan g F act hg ha _ channels_nodup, if_pos (mem_channels d)]

/-! ## The ring and the event unit replaced -/

/-- The state with another ring. -/
def State.withRing (s : State) (r : Ring) : State := { s with ring := r }

/-- The state with another event unit. -/
def State.withEv (s : State) (e : EventUnit) : State := { s with ev := e }

@[simp] theorem chan_withRing (s : State) (r : Ring) (c : Chan) : (s.withRing r).chan c = s.chan c := rfl
@[simp] theorem chan_withEv (s : State) (e : EventUnit) (c : Chan) : (s.withEv e).chan c = s.chan c := rfl
@[simp] theorem withRing_map (s : State) (r : Ring) : (s.withRing r).map = s.map := rfl
@[simp] theorem withEv_map (s : State) (e : EventUnit) : (s.withEv e).map = s.map := rfl
@[simp] theorem withRing_ev (s : State) (r : Ring) : (s.withRing r).ev = s.ev := rfl
@[simp] theorem withRing_ring (s : State) (r : Ring) : (s.withRing r).ring = r := rfl
@[simp] theorem withRing_tim (s : State) (r : Ring) : (s.withRing r).tim = s.tim := rfl
@[simp] theorem withRing_self (s : State) : s.withRing s.ring = s := rfl
@[simp] theorem withEv_self (s : State) : s.withEv s.ev = s := rfl
@[simp] theorem setChan_withRing (s : State) (c : Chan) (x : Channel) (r : Ring) :
    (s.setChan c x).withRing r = (s.withRing r).setChan c x := rfl
@[simp] theorem setChan_withEv (s : State) (c : Chan) (x : Channel) (e : EventUnit) :
    (s.setChan c x).withEv e = (s.withEv e).setChan c x := rfl

@[simp] theorem withRing_withEv_self (s : State) (r : Ring) : (s.withRing r).withEv s.ev = s.withRing r := rfl

/-- A channel, the ring and the event unit replaced: everything else is as it was. -/
theorem frame_ring_ev (s : State) (c : Chan) (x : Channel) (r : Ring) (e : EventUnit) :
    { ((s.withRing r).withEv e).setChan c x with chans := s.chans, ring := s.ring, ev := s.ev } = s := rfl

/-- A channel and the ring replaced: everything else is as it was. -/
theorem frame_ring (s : State) (c : Chan) (x : Channel) (r : Ring) :
    { (s.withRing r).setChan c x with chans := s.chans, ring := s.ring } = s := rfl

/-- A channel and the event unit replaced: everything else is as it was. -/
theorem frame_ev (s : State) (c : Chan) (x : Channel) (e : EventUnit) :
    { (s.withEv e).setChan c x with chans := s.chans, ev := s.ev } = s := rfl

/-- A raise sets one flag (R160). -/
theorem raise_eq (x : Source) (s : State) :
    raise x s = s.withEv { s.ev with latched := s.ev.latched.set x.place true } := rfl

/-! ## Messages that end in one step -/

/-- What the end of a message of channel c adds to the ring: its descriptor, or nothing. -/
def endingOf (cause : MsgStatus) (c : Chan) (s : State) : List Descriptor :=
  match closingStatus (s.chan c).rx.st cause with
  | some status => [descriptorOf c status s]
  | none => []

/-- The ring after the descriptors of ended messages have joined it (R129). -/
def Ring.joined (r : Ring) (ds : List Descriptor) : Ring :=
  { r with entries := r.entries ++ ds, reserved := r.reserved - ds.length, timer := if ds = [] then r.timer else 0 }

@[simp] theorem joined_nil (r : Ring) : r.joined [] = r := by simp [Ring.joined]

theorem joined_joined (r : Ring) (ds es : List Descriptor) : (r.joined ds).joined es = r.joined (ds ++ es) := by
  unfold Ring.joined
  by_cases hd : ds = [] <;> by_cases he : es = [] <;> simp [hd, he, Nat.sub_sub]

/-- The end of a message: its receive unit, and its descriptor in the ring. -/
theorem closeMsg_joined (c : Chan) (cause : MsgStatus) (s : State) :
    closeMsg c cause s =
      (s.withRing (s.ring.joined (endingOf cause c s))).setChan c { s.chan c with rx := (s.chan c).rx.closed } := by
  rw [closeMsg_eq, endingOf]
  cases closingStatus (s.chan c).rx.st cause with
  | none => simp only [joined_nil]; rfl
  | some status => simp [Ring.joined, Ring.completed, State.withRing]

/-! ## The traffic abort (R37, R91, R121, R150) -/

/-- A channel after a traffic abort at its three units. -/
def Channel.aborted (x : Channel) : Channel :=
  { x with rx := x.rx.closed, tx := x.tx.trafficAbort, fl := x.fl.trafficAbort }

theorem abortChan_eq (c : Chan) (s : State) :
    abortChan c s = (s.withRing (s.ring.joined (endingOf .sync c s))).setChan c (s.chan c).aborted := by
  simp only [abortChan, closeMsg_joined, setChan_setChan, chan_setChan_same]
  rfl

theorem abortChan_chan (c d : Chan) (s : State) :
    (abortChan c s).chan d = if d = c then (s.chan c).aborted else s.chan d := by
  rw [abortChan_eq, chan_setChan, chan_withRing]

/-- A traffic abort changes nothing but the channels and the ring. -/
theorem abortChan_frame (c : Chan) (s : State) : { abortChan c s with chans := s.chans, ring := s.ring } = s := by
  rw [abortChan_eq]; exact frame_ring ..

theorem trafficAbort_chan (s : State) (d : Chan) : (trafficAbort s).chan d = (s.chan d).aborted :=
  takeTogether_chan (fun _ => ()) (fun _ _ x => x.aborted) abortChan (fun _ _ => rfl) (fun _ => rfl)
    abortChan_chan _ s d

/-- Over all channels a traffic abort changes nothing but the channels, the ring and the model's counter. -/
theorem trafficAbort_frame (s : State) :
    { trafficAbort s with chans := s.chans, ring := s.ring, arb := s.arb } = s := by
  refine takeTogether_eq (fun t : State => ({ t with chans := s.chans, ring := s.ring, arb := s.arb } : State))
    (l := channels.map abortChan) ?_ (fun _ => rfl) _ s
  intro f hf t
  obtain ⟨c, -, rfl⟩ := List.mem_map.mp hf
  have h := congrArg (fun u : State => ({ u with chans := s.chans, ring := s.ring, arb := s.arb } : State))
    (abortChan_frame c t)
  exact h

/-- The messages that end at the channels of a list join the ring in the order of the list. -/
theorem takeAll_abort_ring (l : List Chan) (hl : l.Nodup) (s : State) :
    (takeAll (l.map abortChan) s).ring = s.ring.joined (l.flatMap fun c => endingOf .sync c s) := by
  induction l generalizing s with
  | nil => simp
  | cons c l ih =>
    obtain ⟨hc, hl⟩ := List.nodup_cons.mp hl
    rw [List.map_cons, takeAll_cons, ih hl, List.flatMap_cons]
    have h1 : (abortChan c s).ring = s.ring.joined (endingOf .sync c s) := by rw [abortChan_eq]; rfl
    have h2 : ∀ d ∈ l, endingOf .sync d (abortChan c s) = endingOf .sync d s := by
      intro d hd
      have hdc : d ≠ c := fun e => hc (e ▸ hd)
      have hx : (abortChan c s).chan d = s.chan d := by rw [abortChan_chan, if_neg hdc]
      have ht : (abortChan c s).tim = s.tim := by
        have h := congrArg State.tim (abortChan_frame c s); exact h
      simp only [endingOf, descriptorOf, hx, ht]
    rw [h1, joined_joined, List.flatMap_congr h2]

/-! ## The switch notice and the switch (R49, R53, R74, R92, R122) -/

/-- A channel after the switch notice with the new ACTIVE bank. -/
def Channel.noticed (b : Bank) (c : Chan) (x : Channel) : Channel :=
  let y := if b.gives .tx c then x else { x with tx := x.tx.unmapped }
  if b.gives .rx c then y else { y with rx := x.rx.closed, peer := { x.peer with present := false, silence := 0 } }

/-- The switch notice: the channel, a descriptor if its message ends, and PEER_CHANGE if its peer was PRESENT. -/
theorem switchNotice_eq (c : Chan) (s : State) :
    switchNotice c s =
      ((s.withRing (if s.map.active.gives .rx c then s.ring else s.ring.joined (endingOf .unmapped c s))).withEv
        (if !s.map.active.gives .rx c && (s.chan c).peer.present then
          { s.ev with latched := s.ev.latched.set (Source.peerChange c).place true } else s.ev)).setChan c
        ((s.chan c).noticed s.map.active c) := by
  unfold switchNotice Channel.noticed peerUnmapped
  cases ht : s.map.active.gives .tx c <;> cases hr : s.map.active.gives .rx c <;> cases hp : (s.chan c).peer.present <;>
    simp [hr, hp, closeMsg_joined, setTx_eq, setPeer_eq, raise_eq, endingOf, descriptorOf]

theorem switchNotice_chan (c d : Chan) (s : State) :
    (switchNotice c s).chan d = if d = c then (s.chan c).noticed s.map.active c else s.chan d := by
  simp only [switchNotice_eq, chan_setChan, chan_withEv, chan_withRing]

/-- The switch notice changes nothing but the channel, the ring and PEER_CHANGE. -/
theorem switchNotice_frame (c : Chan) (s : State) :
    { switchNotice c s with chans := s.chans, ring := s.ring, ev := s.ev } = s := by
  rw [switchNotice_eq]; exact frame_ring_ev ..

/-- The state in which a switch gives its notices. -/
def State.copied (s : State) : State := raise .commitDone { s with map := s.map.switched }

theorem switchBanks_eq (s : State) :
    switchBanks s = takeTogether (decide (2 ≤ endings s.copied fun c => !s.map.shadow.gives .rx c))
      (channels.map switchNotice) s.copied := rfl

theorem switchBanks_chan (s : State) (d : Chan) : (switchBanks s).chan d = (s.chan d).noticed s.map.shadow d := by
  rw [switchBanks_eq]
  exact takeTogether_chan (fun t : State => t.map.active) (fun b c x => x.noticed b c) switchNotice
    (fun c t => by have h := congrArg (fun u : State => u.map.active) (switchNotice_frame c t); exact h) (fun _ => rfl)
    switchNotice_chan _ s.copied d

/-- A switch changes nothing but the map unit, the channels, the ring, the event flags and the model's counter. -/
theorem switchBanks_frame (s : State) :
    { switchBanks s with chans := s.chans, ring := s.ring, ev := s.ev, arb := s.arb } =
      { s with map := s.map.switched } := by
  rw [switchBanks_eq]
  refine takeTogether_eq (fun t : State => ({ t with chans := s.chans, ring := s.ring, ev := s.ev, arb := s.arb } : State))
    (l := channels.map switchNotice) ?_ (fun _ => rfl) _ s.copied
  intro f hf t
  obtain ⟨c, -, rfl⟩ := List.mem_map.mp hf
  have h := congrArg (fun u : State => ({ u with chans := s.chans, ring := s.ring, ev := s.ev, arb := s.arb } : State))
    (switchNotice_frame c t)
  exact h

/-! ## A fall (R37, R50, R54) -/

/-- Without a pending commit a fall that issues traffic aborts is a traffic abort. -/
theorem fall_abort (s : State) (h : s.map.commit = .idle) : fall true s = trafficAbort s := by
  simp [fall, trafficAbort, State.switchPending, h]

/-- Without an abort a fall is the switch of a pending commit, or nothing. -/
theorem fall_quiet (s : State) : fall false s = if s.map.commit = .pending then switchBanks s else s := by
  unfold fall
  by_cases h : s.map.commit = .pending <;> simp [State.switchPending, h, takeTogether]

/-- A fall changes nothing but the map unit, the channels, the ring, the event flags and the model's counter. -/
theorem fall_frame (aborts : Bool) (s : State) :
    { fall aborts s with map := s.map, chans := s.chans, ring := s.ring, ev := s.ev, arb := s.arb } = s := by
  refine takeTogether_eq
    (fun t : State => ({ t with map := s.map, chans := s.chans, ring := s.ring, ev := s.ev, arb := s.arb } : State))
    (l := (if aborts then channels.map abortChan else []) ++ (if s.switchPending then [switchBanks] else [])) ?_
    (fun _ => rfl) _ s
  intro f hf t
  rcases List.mem_append.mp hf with hf | hf
  · split at hf
    · obtain ⟨c, -, rfl⟩ := List.mem_map.mp hf
      have h := congrArg
        (fun u : State => ({ u with map := s.map, chans := s.chans, ring := s.ring, ev := s.ev, arb := s.arb } : State))
        (abortChan_frame c t)
      exact h
    · simp at hf
  · split at hf
    · rw [List.mem_singleton] at hf
      subst hf
      have h := congrArg
        (fun u : State => ({ u with map := s.map, chans := s.chans, ring := s.ring, ev := s.ev, arb := s.arb } : State))
        (switchBanks_frame t)
      exact h
    · simp at hf

/-! ## Gap counts and peer presence at a frame boundary -/

/-- A channel after the gap count of a frame boundary (R119, R120). -/
def Channel.gapStepped (x : Channel) : Channel :=
  if x.rx.st.inProgress then
    if x.rx.seen then { x with rx := { x.rx with gap := 0, seen := false } }
    else if x.fl.asserted then x
    else if gapDue x then { x with rx := x.rx.closed }
    else { x with rx := { x.rx with gap := gapNext x.rx } }
  else { x with rx := { x.rx with seen := false } }

theorem gapStep_eq (c : Chan) (s : State) :
    gapStep c s = (s.withRing (if gapDue (s.chan c) then s.ring.joined (endingOf .gap c s) else s.ring)).setChan c
      (s.chan c).gapStepped := by
  unfold gapStep Channel.gapStepped
  by_cases hg : gapDue (s.chan c) = true
  · have h := hg
    simp only [gapDue, Bool.and_eq_true, Bool.not_eq_true'] at h
    simp [h.1.1.1.1, h.1.1.1.2, h.1.1.2, hg, closeMsg_joined]
  · cases hp : (s.chan c).rx.st.inProgress <;> cases hs : (s.chan c).rx.seen <;> cases ha : (s.chan c).fl.asserted <;>
      simp [hp, hs, ha, setRx_eq, hg]

theorem gapStep_chan (c d : Chan) (s : State) :
    (gapStep c s).chan d = if d = c then (s.chan c).gapStepped else s.chan d := by
  rw [gapStep_eq, chan_setChan, chan_withRing]

/-- The gap count changes nothing but the channel and the ring. -/
theorem gapStep_frame (c : Chan) (s : State) : { gapStep c s with chans := s.chans, ring := s.ring } = s := by
  rw [gapStep_eq]; exact frame_ring ..

/-- A channel after the step of peer presence of a frame boundary (R73). -/
def Channel.peerStepped (judged : Bool) (x : Channel) : Channel :=
  { x with peer := { (if judged then x.peer.judge else x.peer) with mark := false } }

theorem peerStep_eq (worked : Bank) (c : Chan) (s : State) :
    peerStep worked c s =
      (s.withEv (if (worked.gives .rx c && s.map.active.gives .rx c) &&
            decide ((s.chan c).peer.judge.present ≠ (s.chan c).peer.present) then
          { s.ev with latched := s.ev.latched.set (Source.peerChange c).place true } else s.ev)).setChan c
        ((s.chan c).peerStepped (worked.gives .rx c && s.map.active.gives .rx c)) := by
  unfold peerStep Channel.peerStepped
  cases h : (worked.gives .rx c && s.map.active.gives .rx c)
  · simp [setPeer_eq]
  · by_cases hq : (s.chan c).peer.judge.present = (s.chan c).peer.present <;> simp [hq, setPeer_eq, raise_eq]

theorem peerStep_chan (worked : Bank) (c d : Chan) (s : State) :
    (peerStep worked c s).chan d =
      if d = c then (s.chan c).peerStepped (worked.gives .rx c && s.map.active.gives .rx c) else s.chan d := by
  simp only [peerStep_eq, chan_setChan, chan_withEv]

/-- The step of peer presence changes nothing but the channel and PEER_CHANGE. -/
theorem peerStep_frame (worked : Bank) (c : Chan) (s : State) :
    { peerStep worked c s with chans := s.chans, ev := s.ev } = s := by
  rw [peerStep_eq]; exact frame_ev ..

end Sys2Proof.Machine
end

