-- ==== Sys2Proof/Laws/Boundary.lean ====
section
/-! SUPPORT. What a frame boundary does (spec 02, R35, R36; 03, R50): the refresh and hold steps of every channel, and, in an order
that is open, the frame counter, the ready timer, the gap counts, peer presence and the switch of a pending commit. -/

namespace Sys2Proof.Machine

open Sys2Proof

/-- A channel after the refresh step and the hold step of a frame boundary (R147, R154). -/
def Channel.timed (x : Channel) : Channel := x.refreshed.holdStepped

theorem holdStep_chan (c d : Chan) (s : State) :
    (holdStep c s).chan d = if d = c then (s.chan c).holdStepped else s.chan d := by
  rw [holdStep_eq]
  split
  · rw [raise_eq, chan_withEv, chan_setChan]
  · exact chan_setChan ..

/-- The hold step changes nothing but the channel and HOLD_EXPIRED. -/
theorem holdStep_frame (c : Chan) (s : State) : { holdStep c s with chans := s.chans, ev := s.ev } = s := by
  rw [holdStep_eq]
  split
  · rw [raise_eq, setChan_withEv]; exact frame_ev ..
  · rfl

/-- The state in which the happenings of a boundary that fall together are taken: every channel's refresh and hold timed. -/
def State.timed (s : State) : State := takeAll (channels.map refreshStep ++ channels.map holdStep) s

theorem timed_chan (s : State) (c : Chan) : s.timed.chan c = (s.chan c).timed := by
  unfold State.timed Channel.timed
  rw [takeAll_append,
    takeAll_chan (fun _ => ()) (fun _ _ x => x.holdStepped) holdStep (fun _ _ => rfl) holdStep_chan _ channels_nodup,
    if_pos (mem_channels c),
    takeAll_chan (fun _ => ()) (fun _ _ x => x.refreshed) refreshStep (fun _ _ => rfl)
      (fun c d s => by rw [refreshStep_eq, chan_setChan]) _ channels_nodup, if_pos (mem_channels c)]

theorem timed_frame (s : State) : { s.timed with chans := s.chans, ev := s.ev } = s := by
  refine takeAll_eq (fun t : State => ({ t with chans := s.chans, ev := s.ev } : State)) ?_ s
  intro f hf t
  rcases List.mem_append.mp hf with hf | hf
  · obtain ⟨c, -, rfl⟩ := List.mem_map.mp hf
    rw [refreshStep_eq]; rfl
  · obtain ⟨c, -, rfl⟩ := List.mem_map.mp hf
    have h := congrArg (fun u : State => ({ u with chans := s.chans, ev := s.ev } : State)) (holdStep_frame c t)
    exact h

/-- The happenings of a boundary that fall together, but for the frame counter and the switch. -/
def boundaryActs (worked : Bank) : List (State → State) :=
  [readyStep] ++ channels.map gapStep ++ channels.map (peerStep worked)

theorem boundaryWork_eq (s : State) :
    boundaryWork s = takeTogether (boundaryOpen s.timed)
      (countFrame :: (boundaryActs s.timed.map.active ++ (if s.timed.switchPending then [switchBanks] else []))) s.timed := by
  unfold boundaryWork State.timed
  generalize takeAll (channels.map refreshStep ++ channels.map holdStep) s = u
  unfold boundaryActs
  dsimp only
  generalize channels.map gapStep = gs
  generalize channels.map (peerStep u.map.active) = ps
  generalize (if u.switchPending = true then [switchBanks] else []) = sw
  rfl

/-- All the happenings that fall together at a boundary keep what the frame counter, the boundary's acts and a switch keep. -/
theorem boundary_keeps {α : Type} (g : State → α) (hc : ∀ t, g (countFrame t) = g t)
    (ha : ∀ (worked : Bank) (f : State → State), f ∈ boundaryActs worked → ∀ t, g (f t) = g t)
    (hs : ∀ t, g (switchBanks t) = g t) (harb : ∀ t : State, g { t with arb := t.arb + 1 } = g t) (s : State) :
    g (boundaryWork s) = g s.timed := by
  rw [boundaryWork_eq]
  refine takeTogether_eq g ?_ harb _ _
  intro f hf t
  rcases List.mem_cons.mp hf with rfl | hf
  · exact hc t
  · rcases List.mem_append.mp hf with hf | hf
    · exact ha _ f hf t
    · split at hf
      · rw [List.mem_singleton] at hf; subst hf; exact hs t
      · simp at hf

/-- None of them touches the timing unit, the slot engine, the map unit or the pool. -/
theorem boundaryActs_frame (worked : Bank) {f : State → State} (hf : f ∈ boundaryActs worked) (s t : State) :
    ({ f t with chans := s.chans, ring := s.ring, ev := s.ev } : State) =
      { t with chans := s.chans, ring := s.ring, ev := s.ev } := by
  unfold boundaryActs at hf
  simp only [List.mem_append, List.mem_map, List.mem_singleton] at hf
  rcases hf with (rfl | ⟨c, -, rfl⟩) | ⟨c, -, rfl⟩
  · unfold readyStep; split <;> rfl
  · have h := congrArg (fun u : State => ({ u with chans := s.chans, ring := s.ring, ev := s.ev } : State)) (gapStep_frame c t)
    exact h
  · have h := congrArg (fun u : State => ({ u with chans := s.chans, ring := s.ring, ev := s.ev } : State))
      (peerStep_frame worked c t)
    exact h

theorem boundaryActs_tim (worked : Bank) (f : State → State) (hf : f ∈ boundaryActs worked) (t : State) :
    (f t).tim = t.tim := by
  have h := congrArg State.tim (boundaryActs_frame worked hf t t); exact h

theorem boundaryActs_map (worked : Bank) (f : State → State) (hf : f ∈ boundaryActs worked) (t : State) :
    (f t).map = t.map := by
  have h := congrArg State.map (boundaryActs_frame worked hf t t); exact h

theorem switchBanks_tim (t : State) : (switchBanks t).tim = t.tim := by
  have h := congrArg State.tim (switchBanks_frame t); exact h

theorem switchBanks_map (t : State) : (switchBanks t).map = t.map.switched := by
  have h := congrArg State.map (switchBanks_frame t); exact h

theorem tim_of_frame {s t : State} (h : { t with chans := s.chans, ev := s.ev } = s) : t.tim = s.tim := by
  have h' := congrArg State.tim h; exact h'

theorem map_of_frame {s t : State} (h : { t with chans := s.chans, ev := s.ev } = s) : t.map = s.map := by
  have h' := congrArg State.map h; exact h'

theorem timed_tim (s : State) : s.timed.tim = s.tim := tim_of_frame (timed_frame s)

theorem timed_map (s : State) : s.timed.map = s.map := map_of_frame (timed_frame s)

/-- Only the frame counter moves in the timing unit (R35). -/
theorem boundaryWork_tim (s : State) : (boundaryWork s).tim = { s.tim with frameCnt := s.tim.frameCnt + 1 } := by
  rw [boundaryWork_eq, ← timed_tim s]
  generalize s.timed = u
  refine takeTogether_once State.tim (fun t => { t with frameCnt := t.frameCnt + 1 }) (f := countFrame) (fun _ => rfl)
    (List.Perm.refl _) ?_ (fun _ => rfl) _ u
  intro f hf t
  rcases List.mem_append.mp hf with hf | hf
  · exact boundaryActs_tim _ f hf t
  · split at hf
    · rw [List.mem_singleton] at hf; subst hf; exact switchBanks_tim t
    · simp at hf

/-- A pending commit switches at the boundary (R50), and nothing else changes the map unit. -/
theorem boundaryWork_map (s : State) :
    (boundaryWork s).map = if s.map.commit = .pending then s.map.switched else s.map := by
  rw [boundaryWork_eq, ← timed_map s]
  generalize s.timed = u
  have hacts : ∀ f ∈ countFrame :: boundaryActs u.map.active, ∀ t : State, (f t).map = t.map := by
    intro f hf t
    rcases List.mem_cons.mp hf with rfl | hf
    · rfl
    · exact boundaryActs_map _ f hf t
  by_cases hp : u.map.commit = .pending
  · have hs : u.switchPending = true := by simp [State.switchPending, hp]
    rw [if_pos hp, if_pos hs, ← List.cons_append]
    exact takeTogether_once State.map MapUnit.switched switchBanks_map (List.perm_append_singleton ..) hacts (fun _ => rfl) _ u
  · have hs : u.switchPending = false := by simp [State.switchPending, hp]
    rw [if_neg hp, hs, if_neg Bool.false_ne_true, List.append_nil]
    exact takeTogether_eq State.map hacts (fun _ => rfl) _ u

/-- The state with what a boundary changes taken from another. -/
def State.unbounded (s t : State) : State :=
  { t with tim := s.tim, map := s.map, chans := s.chans, ring := s.ring, ev := s.ev, arb := s.arb }

theorem unbounded_of_frame {s t : State} (h : { t with chans := s.chans, ev := s.ev } = s) : s.unbounded t = s := by
  have h' := congrArg s.unbounded h; exact h'

/-- A boundary changes nothing but the frame counter, the map unit, the channels, the ring, the event flags and the model's
counter. -/
theorem boundaryWork_frame (s : State) : s.unbounded (boundaryWork s) = s := by
  rw [boundary_keeps s.unbounded (fun _ => rfl) ?_ ?_ (fun _ => rfl)]
  · exact unbounded_of_frame (timed_frame s)
  · intro worked f hf t
    have h := congrArg s.unbounded (boundaryActs_frame worked hf s t); exact h
  · intro t
    have h := congrArg s.unbounded (switchBanks_frame t); exact h

end Sys2Proof.Machine
end

