-- ==== Sys2Proof/Laws/Memory.lean ====
section
/-! SUPPORT. The bytes of the pool: a read after a write, and the canonical form, which a write keeps. -/

namespace Sys2Proof.Machine

open Sys2Proof

theorem allAbove_iff (a : Nat) (m : List Host.Cell) : Memory.allAbove a m = true ↔ ∀ x ∈ m, a < x.1 := by
  simp [Memory.allAbove]

/-- An address below every listed one reads as an unlisted address does. -/
theorem Memory.read_below {a : Nat} {m : List Host.Cell} (h : ∀ x ∈ m, a < x.1) : Memory.read m a = Config.poolByte := by
  induction m with
  | nil => rfl
  | cons x rest ih =>
    have hx : a < x.1 := h x (List.mem_cons_self ..)
    have hne : x.1 ≠ a := by omega
    simp only [Memory.read, hne, if_false]
    exact ih fun y hy => h y (List.mem_cons_of_mem _ hy)

theorem Memory.wf_cons {x : Host.Cell} {rest : List Host.Cell} (h : Memory.wf (x :: rest) = true) :
    x.2 ≠ Config.poolByte ∧ (∀ y ∈ rest, x.1 < y.1) ∧ Memory.wf rest = true := by
  obtain ⟨k, v⟩ := x
  simpa [Memory.wf, allAbove_iff, and_assoc] using h

/-- The addresses of a written list are those of the list and the one written. -/
theorem Memory.write_mem {m : List Host.Cell} {a : Nat} {b : Byte} {x : Host.Cell} (h : x ∈ Memory.write m a b) :
    x ∈ m ∨ x.1 = a := by
  induction m with
  | nil =>
    simp only [Memory.write] at h
    split at h
    · simp at h
    · simp only [List.mem_singleton] at h
      exact .inr (by simp [h])
  | cons y rest ih =>
    obtain ⟨k, v⟩ := y
    simp only [Memory.write] at h
    split at h
    · split at h
      · exact .inl h
      · rcases List.mem_cons.mp h with h | h
        · exact .inr (by simp [h])
        · exact .inl h
    · split at h
      · split at h
        · exact .inl (List.mem_cons_of_mem _ h)
        · rcases List.mem_cons.mp h with h | h
          · exact .inr (by simp [h])
          · exact .inl (List.mem_cons_of_mem _ h)
      · rcases List.mem_cons.mp h with h | h
        · exact .inl (by simp [h])
        · rcases ih h with h | h
          · exact .inl (List.mem_cons_of_mem _ h)
          · exact .inr h

/-- A write keeps the canonical form. -/
theorem Memory.write_wf {m : List Host.Cell} (a : Nat) (b : Byte) (h : Memory.wf m = true) :
    Memory.wf (Memory.write m a b) = true := by
  induction m with
  | nil =>
    simp only [Memory.write]
    split
    · rfl
    · rename_i hb
      simp [Memory.wf, Memory.allAbove, hb]
  | cons y rest ih =>
    obtain ⟨hv, hab, hwf⟩ := Memory.wf_cons h
    obtain ⟨k, v⟩ := y
    simp only [Memory.write]
    split
    · rename_i hlt
      split
      · exact h
      · rename_i hb
        have hall : ∀ y ∈ (k, v) :: rest, a < y.1 := by
          intro y hy
          rcases List.mem_cons.mp hy with rfl | hy
          · exact hlt
          · exact lt_trans hlt (hab y hy)
        have : Memory.allAbove a ((k, v) :: rest) = true := (allAbove_iff ..).mpr hall
        show (decide (b ≠ Config.poolByte) && Memory.allAbove a ((k, v) :: rest) && Memory.wf ((k, v) :: rest)) = true
        simp [this, h, hb]
    · split
      · rename_i hlt heq
        subst heq
        split
        · exact hwf
        · rename_i hb
          have : Memory.allAbove a rest = true := (allAbove_iff ..).mpr hab
          show (decide (b ≠ Config.poolByte) && Memory.allAbove a rest && Memory.wf rest) = true
          simp [this, hwf, hb]
      · rename_i hlt hne
        have hall : Memory.allAbove k (Memory.write rest a b) = true := by
          rw [allAbove_iff]
          intro y hy
          rcases Memory.write_mem hy with hy | hy
          · exact hab y hy
          · omega
        show (decide (v ≠ Config.poolByte) && Memory.allAbove k (Memory.write rest a b)
          && Memory.wf (Memory.write rest a b)) = true
        have hv' : v ≠ Config.poolByte := hv
        simp [hall, ih hwf, hv']

/-- A read after a write: the byte written at its address, every other address as before. -/
theorem Memory.read_write {m : List Host.Cell} (h : Memory.wf m = true) (a a' : Nat) (b : Byte) :
    Memory.read (Memory.write m a b) a' = if a' = a then b else Memory.read m a' := by
  induction m with
  | nil =>
    by_cases hb : b = Config.poolByte
    · simp [Memory.write, Memory.read, hb]
    · by_cases ha : a' = a
      · simp [Memory.write, Memory.read, hb, ha]
      · simp [Memory.write, Memory.read, hb, ha, Ne.symm ha]
  | cons y rest ih =>
    obtain ⟨_, hab, hwf⟩ := Memory.wf_cons h
    obtain ⟨k, v⟩ := y
    simp only [Memory.write]
    have hab' : ∀ y ∈ rest, k < y.1 := hab
    split
    · rename_i hlt
      split
      · rename_i hb
        by_cases ha : a' = a
        · subst ha
          have : Memory.read ((k, v) :: rest) a' = Config.poolByte := by
            apply Memory.read_below
            intro y hy
            rcases List.mem_cons.mp hy with rfl | hy
            · exact hlt
            · exact lt_trans hlt (hab' y hy)
          simp [this, hb]
        · simp [ha]
      · by_cases ha : a' = a
        · simp [Memory.read, ha]
        · simp [Memory.read, ha, Ne.symm ha]
    · split
      · rename_i hnlt heq
        subst heq
        split
        · rename_i hb
          by_cases ha : a' = a
          · subst ha
            simp [Memory.read_below hab', hb]
          · simp [Memory.read, ha, Ne.symm ha]
        · by_cases ha : a' = a
          · simp [Memory.read, ha]
          · simp [Memory.read, ha, Ne.symm ha]
      · rename_i hnlt hne
        by_cases ha : k = a'
        · subst ha
          have : k ≠ a := Ne.symm hne
          simp [Memory.read, this]
        · simp [Memory.read, ha, ih hwf]

/-- The memory of the part after reset is in canonical form. -/
theorem reset_memory_wf : Memory.wf State.reset.pool.mem = true := rfl

/-- The one operation that writes a byte of the pool keeps the canonical form. -/
theorem writePoolByte_wf {s : State} (b : BlockNo) (p : Nat) (v : Byte) (h : Memory.wf s.pool.mem = true) :
    Memory.wf (s.writePoolByte b p v).pool.mem = true := Memory.write_wf _ _ h

/-- A byte of the pool after one is written: positions below 32 do not overlap between blocks (R100). -/
theorem poolByte_writePoolByte {s : State} (h : Memory.wf s.pool.mem = true) (b b' : BlockNo) {p p' : Nat} (hp : p < 32)
    (hp' : p' < 32) (v : Byte) :
    (s.writePoolByte b p v).poolByte b' p' = if b' = b ∧ p' = p then v else s.poolByte b' p' := by
  have key : blockAddr b' p' = blockAddr b p ↔ b' = b ∧ p' = p := by
    simp only [blockAddr, Fin.ext_iff]
    omega
  show Memory.read (Memory.write s.pool.mem (blockAddr b p) v) (blockAddr b' p') = _
  rw [Memory.read_write h]
  by_cases hk : b' = b ∧ p' = p
  · simp [hk]
  · rw [if_neg (fun e => hk (key.mp e)), if_neg hk]
    rfl

end Sys2Proof.Machine
end

