-- ==== Sys2Proof/Laws/Slots.lean ====
section
/-! SUPPORT. The abandoning of a slot (spec 01, R15): what is left where a slot's result is due, and where none is. -/

namespace Sys2Proof.Machine

open Sys2Proof

/-! ## A pull left on HWDATA -/

@[simp] theorem DataHold.pulls_released : DataHold.released.pulls = false := rfl
@[simp] theorem DataHold.pulls_toLocalBit : DataHold.toLocalBit.pulls = true := rfl
@[simp] theorem DataHold.pulls_toLineBit (ended : Bool) : (DataHold.toLineBit ended).pulls = true := rfl

/-- A pull is left exactly while HWDATA is not released. -/
theorem DataHold.pulls_eq (h : DataHold) : h.pulls = decide (h ≠ .released) := by cases h <;> rfl

/-- Where the local generator begins a bit period, only a pull timed by HWCLK is left (R15, R17). -/
theorem DataHold.atLocalBit_eq (h : DataHold) : h.atLocalBit = if h = .toLocalBit then .released else h := by cases h <;> rfl

/-- After an end of a local frame period, a pull is left only for a bit period of HWCLK, and only where this end is the first
since the pull was left (R15; log entry 25). -/
theorem DataHold.atPeriodEnd_eq (h : DataHold) :
    h.atPeriodEnd = if h = .toLineBit false then .toLineBit true else .released := by
  rcases h with _ | _ | _ | _ <;> rfl

/-- No pull outlasts two ends of local frame periods (R1, R15). -/
theorem DataHold.atPeriodEnd_twice (h : DataHold) : h.atPeriodEnd.atPeriodEnd = .released := by
  rcases h with _ | _ | _ | _ <;> rfl

/-- A new local frame period takes the pull left as its end does. -/
@[simp] theorem newPeriod_dataHeld (s : State) : (newPeriod s).dataHeld = s.dataHeld.atPeriodEnd := rfl

/-! ## HWDATA is let go -/

@[simp] theorem dropSlot_slot (s : State) : (dropSlot s).slot = .idle := rfl
@[simp] theorem dropSlot_tim (s : State) : (dropSlot s).tim = s.tim := rfl
@[simp] theorem dropSlot_map (s : State) : (dropSlot s).map = s.map := rfl
@[simp] theorem dropSlot_chan (s : State) (c : Chan) : (dropSlot s).chan c = s.chan c := rfl
@[simp] theorem dropSlot_pool (s : State) : (dropSlot s).pool = s.pool := rfl
@[simp] theorem dropSlot_ring (s : State) : (dropSlot s).ring = s.ring := rfl
@[simp] theorem dropSlot_ev (s : State) : (dropSlot s).ev = s.ev := rfl

/-- An abandoned slot pulls HWDATA on for a bit period that has begun, and for no other (R15). -/
theorem dropSlot_pulls (s : State) : (dropSlot s).pullsData = (s.dataHeld.pulls || (s.pullsData && s.bitBegun)) := by
  have h : (dropSlot s).pullsData = s.holdLeft.pulls := by simp [dropSlot, State.pullsData, State.slotPulls]
  rw [h, State.pullsData, State.holdLeft]
  cases s.slotPulls <;> cases s.bitBegun <;> cases s.drivesClock <;> cases s.dataHeld <;> rfl

@[simp] theorem dropSlot_dataHeld (s : State) : (dropSlot s).dataHeld = s.holdLeft := rfl

/-- A pull that an abandoned slot leaves ends with a bit period of the clock the part worked to: the local generator's in
DRIVING, HWCLK elsewhere (R15, R17). -/
theorem dropSlot_hold {s : State} (h : s.dataHeld = .released) (hp : (dropSlot s).pullsData = true) :
    (dropSlot s).dataHeld = if s.tim.st = .driving then .toLocalBit else .toLineBit false := by
  rw [dropSlot_pulls] at hp
  simp only [h, State.pullsData, DataHold.pulls_released, Bool.false_or] at hp
  simp [State.holdLeft, hp, State.drivesClock]

/-! ## A result that is due comes first -/

/-- Where no result is due, ECHO_RESULT changes nothing. -/
theorem echoStep_of_not_over {s : State} (h : s.slotOver = false) : echoStep s = s := by
  unfold echoStep
  split
  · rename_i x hx
    split
    · rename_i w hw
      simp only [State.slotOver, hx, hw, Option.isSome_some, Bool.and_true] at h
      split
      · rename_i hc
        simp only [Bool.and_eq_true, decide_eq_true_eq] at hc
        simp [hc.1, hc.2] at h
      · rfl
    · rfl
  · rfl
  · rfl

/-- Where no result is due, RX_WORD changes nothing. -/
theorem rxWordStep_of_not_over {s : State} (h : s.slotOver = false) : rxWordStep s = s := by
  unfold rxWordStep
  split
  · rename_i x hx
    simp only [State.slotOver, hx] at h
    split
    · rename_i hc
      simp only [Bool.and_eq_true, decide_eq_true_eq] at hc
      simp [hc.1, hc.2] at h
    · rfl
  · rfl
  · rfl

/-- Where no result is due, nothing is delivered first. -/
theorem settleSlot_of_not_over {s : State} (h : s.slotOver = false) : settleSlot s = s := by
  rw [settleSlot, echoStep_of_not_over h, rxWordStep_of_not_over h]

/-- A slot that has ended leaves no result due: the next one has no bit yet. -/
theorem advanceSlot_over (k : Nat) (s : State) : (advanceSlot k s).slotOver = false := by
  unfold advanceSlot
  split <;> rfl

/-- After ECHO_RESULT of a TX slot that is over, no result is due. -/
theorem echoStep_over {s : State} (h : echoStep s ≠ s) : (echoStep s).slotOver = false := by
  unfold echoStep at h ⊢
  split
  · split
    · split
      · exact advanceSlot_over _ _
      · simp_all
    · simp_all
  · simp_all
  · simp_all

/-- After RX_WORD of an RX slot that is over, no result is due. -/
theorem rxWordStep_over {s : State} (h : rxWordStep s ≠ s) : (rxWordStep s).slotOver = false := by
  unfold rxWordStep at h ⊢
  split
  · split
    · exact advanceSlot_over _ _
    · simp_all
  · simp_all
  · simp_all

end Sys2Proof.Machine
end

