-- ==== Sys2Proof/Laws/Step.lean ====
section
/-! SUPPORT. What a step can do, said once: the command at the front, a change of an input line, or a REFCLK period; and what each
change of a line can do (spec 10, R174). -/

namespace Sys2Proof.Machine

open Sys2Proof

/-! ## The start of a local frame period (R17) -/

@[simp] theorem startPeriod_gen (s : State) :
    (startPeriod s).gen = { div := s.tim.refdiv, ref := 0, len := s.map.active.slots, bit := 0 } := rfl
@[simp] theorem startPeriod_tim (s : State) : (startPeriod s).tim = s.tim := rfl
@[simp] theorem startPeriod_map (s : State) : (startPeriod s).map = s.map := rfl
@[simp] theorem startPeriod_slot (s : State) : (startPeriod s).slot = s.slot := rfl
@[simp] theorem startPeriod_chan (s : State) (c : Chan) : (startPeriod s).chan c = s.chan c := rfl
@[simp] theorem startPeriod_pool (s : State) : (startPeriod s).pool = s.pool := rfl
@[simp] theorem startPeriod_ring (s : State) : (startPeriod s).ring = s.ring := rfl
@[simp] theorem startPeriod_dataHeld (s : State) : (startPeriod s).dataHeld = s.dataHeld := rfl
@[simp] theorem startPeriod_ev (s : State) : (startPeriod s).ev = s.ev := rfl

/-! ## The three kinds of step -/

/-- With a command waiting, a step is that command. -/
theorem step_cons {s : State} {c : Instr} {rest : List Instr} (h : s.pending = c :: rest) :
    step s = exec c { s with pending := rest } := by simp [step, h]

/-- With no command waiting and a change of a line waiting, a step takes that change. -/
theorem step_pin {s : State} {p : PinChange} {rest : List PinChange} (h : s.pending = []) (hi : s.inputs = p :: rest) :
    step s = takePin p { s with inputs := rest } := by simp [step, h, hi]

/-- With nothing waiting, a step is a REFCLK period. -/
theorem step_idle {s : State} (h : s.pending = []) (hi : s.inputs = []) : step s = .next (outOfReset refclkTick s) := by
  simp [step, h, hi]

/-- Everything a step can be. -/
theorem step_cases (s : State) :
    (∃ c rest, s.pending = c :: rest ∧ step s = exec c { s with pending := rest }) ∨
    (∃ p rest, s.pending = [] ∧ s.inputs = p :: rest ∧ step s = takePin p { s with inputs := rest }) ∨
    (s.pending = [] ∧ s.inputs = [] ∧ step s = .next (outOfReset refclkTick s)) := by
  by_cases hp : s.pending = []
  · by_cases hi : s.inputs = []
    · exact .inr (.inr ⟨hp, hi, step_idle hp hi⟩)
    · obtain ⟨p, rest, hi⟩ := List.exists_cons_of_ne_nil hi
      exact .inr (.inl ⟨p, rest, hp, hi, step_pin hp hi⟩)
  · obtain ⟨c, rest, hp⟩ := List.exists_cons_of_ne_nil hp
    exact .inl ⟨c, rest, hp, step_cons hp⟩

/-! ## Changes of the lines -/

/-- Everything a read can be (R172, R174, R175). -/
theorem busRead_cases (off : BitVec 6) (s : State) :
    (s.resetn = false ∧ busRead off s = .next (s.driveData 0)) ∨
    (s.resetn = true ∧ off = 0x10 ∧ busRead off s = execRxdataRead s) ∨
    (s.resetn = true ∧ off = 0x13 ∧ busRead off s = .next (readMapdata s)) ∨
    (s.resetn = true ∧ off = 0x30 ∧ busRead off s = .next (readCause s)) ∨
    (s.resetn = true ∧ off ≠ 0x10 ∧ off ≠ 0x13 ∧ off ≠ 0x30 ∧ busRead off s = .next (s.driveData (readRegister s off))) := by
  unfold busRead
  by_cases h : s.resetn = true
  · rw [if_neg (by simp [h])]
    by_cases h1 : off = 0x10
    · exact .inr (.inl ⟨h, h1, if_pos h1⟩)
    rw [if_neg h1]
    by_cases h2 : off = 0x13
    · exact .inr (.inr (.inl ⟨h, h2, if_pos h2⟩))
    rw [if_neg h2]
    by_cases h3 : off = 0x30
    · exact .inr (.inr (.inr (.inl ⟨h, h3, if_pos h3⟩)))
    exact .inr (.inr (.inr (.inr ⟨h, h1, h2, h3, if_neg h3⟩)))
  · exact .inl ⟨by simpa using h, if_pos (by simpa using h)⟩

/-- Everything a change of a line can be: the levels kept of the lines alone, one read, or one write (R2, R38, R174). -/
theorem takePin_cases (p : PinChange) (s : State) :
    (∃ b v l d, takePin p s = .next { s with bus := b, hwsense := v, hwclkLow := l, dataHeld := d }) ∨
    (∃ b, s.bus.readTaken false = true ∧ takePin p s = busRead s.bus.addr { s with bus := b }) ∨
    (∃ b, s.bus.writeTaken true = true ∧
      takePin p s = .next (outOfReset (hostWrite s.bus.addr s.bus.data) { s with bus := b })) := by
  cases p with
  | rdn high =>
    by_cases h : s.bus.readTaken high = true
    · have low : high = false := by revert h; cases high <;> simp [HostBus.readTaken]
      subst low
      exact .inr (.inl ⟨_, h, by simp [takePin, takeRdn, h]; rfl⟩)
    · exact .inl ⟨_, s.hwsense, s.hwclkLow, s.dataHeld, by simp [takePin, takeRdn, h]; rfl⟩
  | wrn high =>
    by_cases h : s.bus.writeTaken high = true
    · have up : high = true := by revert h; cases high <;> simp [HostBus.writeTaken]
      subst up
      exact .inr (.inr ⟨_, h, by simp [takePin, takeWrn, h]; rfl⟩)
    · exact .inl ⟨_, s.hwsense, s.hwclkLow, s.dataHeld, by simp [takePin, takeWrn, h]; rfl⟩
  | csn high => exact .inl ⟨_, s.hwsense, s.hwclkLow, s.dataHeld, rfl⟩
  | address a => exact .inl ⟨_, s.hwsense, s.hwclkLow, s.dataHeld, rfl⟩
  | data w => exact .inl ⟨_, s.hwsense, s.hwclkLow, s.dataHeld, rfl⟩
  | sense high => exact .inl ⟨s.bus, high, s.hwclkLow, s.dataHeld, rfl⟩
  | hwclkFalls => exact .inl ⟨s.bus, s.hwsense, true, .released, rfl⟩

/-- The part drives D15-D0 exactly while a read it took is in progress and no strobe clash is, and with the value formed
(R174). -/
theorem dataPins_eq_some (s : State) (w : Word) :
    s.dataPins = some w ↔ s.readData = w ∧ s.bus.csn = false ∧ s.bus.rdn = false ∧ s.bus.wrn = true ∧
      s.bus.reading = true ∧ s.bus.clash = false := by
  simp only [State.dataPins]
  split <;> rename_i h <;> simp at h ⊢
  · simp [h]
  · intro _ h1 h2 h3 h4
    simpa using h h1 h2 h3 h4

end Sys2Proof.Machine
end

