-- ==== Sys2Proof/Tests/Slice0.lean ====
section
/-! SUPPORT. Tests of single steps with the results the manual gives, the smoke test of well-formedness, and for every
statement with hypotheses a concrete state that meets them, clause by clause. -/

namespace Sys2Proof.Tests

set_option Elab.async false

open Sys2Proof Sys2Proof.Machine

/-! ## Small states -/

/-- The answer is a next state with property p. -/
def answers (o : Host.Outcome State Fault Refusal) (p : State → Bool) : Bool :=
  match o with
  | .next t => p t
  | _ => false

/-- The answer is the next state t. -/
def gives (o : Host.Outcome State Fault Refusal) (t : State) : Bool := answers o fun u => decide (u = t)

/-- Reset with the timing unit in a state, at position `pos`. -/
def timed (st : TimState) (align cand : Option Nat) (pos : Nat) : State :=
  { State.reset with tim := { enable := true, st := st, align := align, cand := cand, pos := pos, lineUp := true
                              edgeMark := true, pulse := true } }

/-- LOCKED on position 0. -/
def locked : State := timed .locked (some 0) none 5

/-- A bank of 32 slots with one entry in use. -/
def bankWith (k : SlotNo) (m : SlotMode) (c : Chan) : Bank :=
  { len := 3, entries := (Vector.replicate 32 {}).set k { mode := m, chan := c } }

/-- SHADOW with one entry in use, in a commit state. -/
def shadowed (cs : CommitState) (k : SlotNo) (m : SlotMode) (c : Chan) (s : State) : State :=
  { s with map := { s.map with commit := cs, shadow := bankWith k m c } }

/-- A TX slot of channel c with its word, if chosen, and the samples so far. -/
def txSlotOf (c : Chan) (w : Option SlotWord) (bits : List Bool) : Slot :=
  { number := 2, entry := { mode := .tx, chan := c }, work := .tx, word := w, bits := bits }

/-- An RX slot of channel c at its end, having received w. -/
def rxSlotOf (c : Chan) (w : SlotWord) : Slot :=
  { number := 8, entry := { mode := .rx, chan := c }, work := .rx, word := none, bits := wordBits w }

/-- LOCKED in a slot, with its channel as given. -/
def within (x : Slot) (y : Channel) : State := { (locked.setChan x.entry.chan y) with slot := .inSlot x }

/-- A closed message. -/
def message (bytes : List Byte) : TxRecord := { bytes := bytes, closed := true, poisoned := false }

/-- A channel that sends, its list and the word in flight as given. -/
def sender (records : List TxRecord) (offset : Nat) (k : Option TxKind) : Channel :=
  { cfg := { tx := true }
    tx := { records := records, sending := decide (0 < offset), offset := offset
            flight := k.map fun kind => { kind := kind, orphan := false } } }

/-- A channel that receives, with its receive unit. -/
def receiver (u : RxUnit) (held : Nat) : Channel := { cfg := { rx := true }, rx := u, held := held }

/-- A receive unit with a block of which `fill` bytes are filled. -/
def openUnit (st : RxState) (fill : Nat) : RxUnit := { st := st, first := some 0, cur := some 0, fill := fill, len := fill }

/-- A descriptor of channel 1. -/
def entryOf (length : Nat) (first : Option BlockNo) : Descriptor :=
  { chan := 1, seq := 0, status := .ok, damaged := false, length := length, first := first, stamp := 1034 }

/-- Reset with ring entries, and block 0 linked to block 1 and that to block 2. -/
def ringed (entries : List Descriptor) : State :=
  { State.reset with
    ring := { entries := entries }
    pool := { links := ((Vector.replicate 128 none).set 0 (some 1)).set 1 (some 2), free := (List.finRange 128).drop 3 } }

/-- The same with read offset `off`. -/
def atOffset (off : Nat) (s : State) : State := { s with ring := { s.ring with readOff := off } }

/-- LOCKED, standing at the end of a frame. -/
def frameEnd : State := { timed .locked (some 0) none 352 with slot := .frameDone }

/-! ## Well-formedness refuses what is not of its row -/

theorem test_wf_unknownCommand : (Instr.unknownCommand 0x01).wf = false ∧ (Instr.unknownCommand 0x2F).wf = false ∧
    (Instr.unknownCommand 0x30).wf = true := by decide
theorem test_wf_registerWrite : (Instr.registerWrite 0x13 0).wf = false ∧ (Instr.registerWrite 0x20 0).wf = false ∧
    (Instr.registerWrite 0x28 0).wf = true := by decide
theorem test_wf_timingEnable : (Instr.timingEnable 0x7FFF).wf = false := by decide
theorem test_wf_timingDisable : (Instr.timingDisable 0x8000).wf = false := by decide
theorem test_wf_rxEnableSet : (Instr.rxEnableSet 0xFFFE).wf = false := by decide
theorem test_wf_rxEnableClear : (Instr.rxEnableClear 0x0001).wf = false := by decide
theorem test_wf_txEnableSet : (Instr.txEnableSet 0xFFFD).wf = false := by decide
theorem test_wf_txEnableClear : (Instr.txEnableClear 0x0002).wf = false := by decide
theorem test_wf_fcEnableSet : (Instr.fcEnableSet 0xFFFB).wf = false := by decide
theorem test_wf_fcEnableClear : (Instr.fcEnableClear 0x0004).wf = false := by decide

/-! ## Words of the highway and of the host port (R4 to R6, R12, R162, R172) -/

theorem test_controlWords : buildWord .ctrl 0x3C = 0b11001111000#11 ∧ buildWord .ctrl 0xC3 = 0b11110000110#11 ∧
    buildWord .ctrl 0x5A = 0b11010110100#11 ∧ buildWord .idle 0 = 0 := by decide
theorem test_classify : classify 0x7FF = .silent ∧ classify 0b01000000001#11 = .data 0 ∧
    classify 0b01000000000#11 = .corrupt := by decide
theorem test_identity : readRegister State.reset 0x00 = 0x0832 := by decide +kernel

/-! ## One step of every command, read through the registers of section 10.7 -/

theorem test_resetAssert : answers (exec .resetAssert locked) (fun t => decide (readRegister t 0x00 = 0) && t.intnPin) = true := by
  decide +kernel
theorem test_resetRelease : gives (exec .resetRelease locked.hardReset) State.reset = true := by decide +kernel
theorem test_softReset : answers (exec .softReset { locked with tim := { locked.tim with rank := 3 } })
    (fun t => decide (readRegister t 0x04 = 0x0430) && decide (readRegister t 0x02 = 0x0F01)) = true := by decide +kernel
/-- 3.8: an entry in slot 20 of a bank of 16 slots. -/
theorem test_commit_slotBeyondFrame :
    answers (exec .commit { State.reset with map := { shadow := { bankWith 20 .rx 1 with len := 1 } } })
      (fun t => decide (readRegister t 0x15 = 0xD474) && decide (readRegister t 0x02 = 0x0173)) = true := by decide +kernel
theorem test_commit_inOff : answers (exec .commit (shadowed .idle 4 .rx 1 State.reset))
    (fun t => decide (t.map.active = bankWith 4 .rx 1) && decide (readRegister t 0x31 = 0x0400)) = true := by decide +kernel
/-- 10.8: CANCEL that finds nothing pending. -/
theorem test_cancel_nothingPending :
    answers (exec .cancel State.reset) (fun t => decide (readRegister t 0x02 = 0x0223)) = true := by decide +kernel
theorem test_cancel_pending : answers (exec .cancel (shadowed .pending 4 .rx 1 locked))
    (fun t => decide (readRegister t 0x15 = 0xC006) && decide (t.map.active = {})) = true := by decide +kernel
theorem test_timingRestart_off : answers (exec .timingRestart State.reset) (fun t => decide (readRegister t 0x02 = 0x0343)) = true := by
  decide +kernel
theorem test_timingRestart_master : answers (exec .timingRestart { locked with tim := { locked.tim with role := .master, yielded := true } })
    (fun t => decide (readRegister t 0x06 = 0x0021)) = true := by decide +kernel
/-- 11.5: RELEASE of the 70-byte message in blocks 0, 1 and 2. -/
theorem test_release : answers (exec .release ((ringed [entryOf 70 (some 0)]).setChan 1 (receiver {} 3)))
    (fun t => decide (t.pool.free = (List.finRange 128).drop 3 ++ [0, 1, 2]) && decide ((t.chan 1).held = 0) &&
      decide (readRegister t 0x09 = 128)) = true := by decide +kernel
theorem test_flush : answers (exec (.flush 3) (State.reset.setChan 3 (sender [message [1, 2, 3]] 2 none)))
    (fun t => decide (readRegister t 0x2B = 0xC200) && decide (readRegister t 0x02 = 0x1301)) = true := by decide +kernel
theorem test_hostPause : answers (exec (.hostPause 7) (State.reset.setChan 7 { cfg := { rx := true, fc := true } }))
    (fun t => (t.chan 7).fl.asserted && (t.chan 7).fl.pauseOwed && decide (readRegister t 0x02 = 0x2701)) = true := by
  decide +kernel
theorem test_hostResume :
    answers (exec (.hostResume 0) (State.reset.setChan 0 { cfg := { rx := true, fc := true }, fl := { host := true, asserted := true, pauseOwed := true } }))
    (fun t => !(t.chan 0).fl.asserted && (t.chan 0).fl.resumeOwed && !(t.chan 0).fl.pauseOwed) = true := by decide +kernel
theorem test_unknownCommand : answers (exec (.unknownCommand 0x05) State.reset)
    (fun t => decide (readRegister t 0x02 = 0x0553)) = true := by decide +kernel
theorem test_timingEnable_master : answers (exec (.timingEnable 0x8421) State.reset)
    (fun t => decide (readRegister t 0x06 = 0x0001) && decide (readRegister t 0x04 = 0x8421)) = true := by decide +kernel
theorem test_timingEnable_rejected : gives (exec (.timingEnable 0x8403) State.reset) { State.reset with cfgReject := true } = true := by
  decide +kernel
theorem test_timingDisable : answers (exec (.timingDisable 0x0400) locked)
    (fun t => decide (readRegister t 0x06 = 0x0020) && decide (readRegister t 0x04 = 0x0400)) = true := by decide +kernel
theorem test_rxEnableSet : answers (exec (.rxEnableSet 0x0001) State.reset) (fun t => decide (readRegister t 0x18 = 1)) = true := by
  decide +kernel
theorem test_rxEnableClear : answers (exec (.rxEnableClear 0x0000) (State.reset.setChan 0 (receiver { st := .starved } 0)))
    (fun t => decide (readRegister t 0x37 = 0) && decide (readRegister t 0x18 = 0)) = true := by decide +kernel
theorem test_txEnableSet : answers (exec (.txEnableSet 0x0002) State.reset) (fun t => decide (readRegister t 0x28 = 0x4200)) = true := by
  decide +kernel
/-- A head SENDING at offset 2 makes an uncounted restart (R93). -/
theorem test_txEnableClear : answers (exec (.txEnableClear 0x0000) (State.reset.setChan 0 (sender [message [1, 2, 3]] 2 none)))
    (fun t => decide (readRegister t 0x28 = 0x85FD) && decide ((t.chan 0).tx.offset = 0)) = true := by decide +kernel
theorem test_fcEnableSet : answers (exec (.fcEnableSet 0x0005) (State.reset.setChan 0 { cfg := { rx := true }, fl := { host := true } }))
    (fun t => decide (readRegister t 0x37 = 0x0090) && (t.chan 0).fl.pauseOwed) = true := by decide +kernel
theorem test_fcEnableClear : answers (exec (.fcEnableClear 0x0000) (State.reset.setChan 0 { cfg := { fc := true }, fl := { held := true, holdCnt := 3 } }))
    (fun t => !(t.chan 0).fl.held && decide ((t.chan 0).fl.holdCnt = 0)) = true := by decide +kernel
/-- LW 12 with HW 12 is rejected, LW 11 is stored (R63). -/
theorem test_chcfgWrite_rejected : gives (exec (.chcfgWrite 3 12) State.reset) { State.reset with cfgReject := true } = true := by
  decide +kernel
theorem test_chcfgWrite_stored : answers (exec (.chcfgWrite 3 11) State.reset) (fun t => decide (readRegister t 0x1B = 11)) = true := by
  decide +kernel
theorem test_txdata : answers (exec (.txdata 2 0x01FF) State.reset) (fun t => decide (readRegister t 0x2A = 0x05FF)) = true := by
  decide +kernel
theorem test_mapdataWrite : answers (exec (.mapdataWrite 0xFEFB) { State.reset with map := { index := 31, autoInc := true } })
    (fun t => decide (t.map.shadow = bankWith 31 .rx 3) && decide (readRegister t 0x12 = 0x8000)) = true := by decide +kernel
theorem test_mapdataRead : answers (exec .mapdataRead { State.reset with map := { active := bankWith 9 .tx 5, selActive := true, index := 9 } })
    (fun t => decide (t.readData = 0x0105)) = true := by decide +kernel
theorem test_maphdrWrite : answers (exec (.maphdrWrite 0xFFFD) State.reset)
    (fun t => decide (readRegister t 0x14 = 1) && decide (readRegister t 0x15 = 0xC000)) = true := by decide +kernel
/-- 11.5: the 70th read returns byte 69 with bit 8 set; the read after it PAST_END. -/
theorem test_rxdataRead_lastByte :
    answers (exec .rxdataRead (atOffset 69 { ringed [entryOf 70 (some 0)] with
        pool := { (ringed []).pool with mem := [(69, 0x45)] } }))
      (fun t => decide (t.readData = 0x0145) && decide (readRegister t 0x11 = 70)) = true := by decide +kernel
theorem test_rxdataRead_pastEnd : answers (exec .rxdataRead (atOffset 70 (ringed [entryOf 70 (some 0)])))
    (fun t => decide (t.readData = 0x4000)) = true := by decide +kernel
theorem test_rxoffsetWrite : gives (exec (.rxoffsetWrite 71) (ringed [entryOf 70 (some 0)]))
    { ringed [entryOf 70 (some 0)] with cfgReject := true } = true := by decide +kernel
/-- TX_DROPPED(3) with detail OVERFLOW is named before RX_READY, and goes with the read (R162, R163). -/
theorem test_causeRead : answers (exec .causeRead { (raiseDropped 3 .overflow (ringed [entryOf 1 (some 2)])) with
        ev := { (raiseDropped 3 .overflow State.reset).ev with enable := Vector.replicate 59 true } })
    (fun t => decide (t.readData = 0x2312) && decide (t.causeWord = 0x0003)) = true := by decide +kernel
theorem test_chstickyWrite : answers (exec (.chstickyWrite 0x0014) (State.reset.setSticky 0 { parity := true, starved := true }))
    (fun t => decide (readRegister t 0x17 = 0x0001)) = true := by decide +kernel
/-- 10.8: the final write of CMDSTAT clears both flags. -/
theorem test_cmdstatWrite : answers (exec (.cmdstatWrite 0x000C) { State.reset with cfgReject := true, mapBusy := true })
    (fun t => decide (readRegister t 0x02 = 0)) = true := by decide +kernel
theorem test_poolcfgWrite : gives (exec (.poolcfgWrite 0x0279) State.reset)
    { State.reset with pool := { State.reset.pool with reserve := 121, hyst := 2 } } = true := by decide +kernel
theorem test_poolcfgWrite_rejected : answers (exec (.poolcfgWrite 0x0A77) State.reset) (fun t => t.cfgReject) = true := by
  decide +kernel
theorem test_ringcfgWrite : answers (exec (.ringcfgWrite 0xFF20) State.reset) (fun t => decide (readRegister t 0x0A = 0xFF20)) = true := by
  decide +kernel
theorem test_registerWrite_chsel : answers (exec (.registerWrite 0x16 9) State.reset) (fun t => t.cfgReject && decide (t.chsel = 0)) = true := by
  decide +kernel
/-- 11.8: the pulse at B1, one frame after the candidate, with 10 bytes stored and the head SENDING at offset 5. -/
theorem test_syncPulse_slip :
    answers (exec .syncPulse { ((timed .locked (some 352) (some 100) 452).setChan 0
        { sender [message [1, 2, 3, 4, 5, 6, 7, 8]] 5 none with
          cfg := { rx := true, tx := true, fc := true }, rx := openUnit .opened 10, held := 1
          fl := { host := true, asserted := true, held := true } }) with ring := { reserved := 1 } })
      (fun t => decide (readRegister t 0x06 = 0x0324) && decide (readRegister t 0x0C = 0x8020) && decide (readRegister t 0x0D = 10) &&
        decide (readRegister t 0x28 = 0xC5F8) && (t.chan 0).fl.pauseOwed && !(t.chan 0).fl.held) = true := by decide +kernel
/-- 11.6: the end of frame 136, at which the refresh counter reaches P. -/
theorem test_frameBoundary : answers (exec (.frameBoundary true) (frameEnd.setChan 2
      { cfg := { rx := true, fc := true }, fl := { host := true, asserted := true, refresh := 3 } }))
    (fun t => (t.chan 2).fl.pauseOwed && decide ((t.chan 2).fl.refresh = 0) && decide (readRegister t 0x07 = 1)) = true := by
  decide +kernel
/-- 11.7: end 4 of the takeover: the flywheel counter stands at its limit. -/
theorem test_localFramePeriodEnd : answers (exec (.localFramePeriodEnd true) { timed .flywheel (some 0) none 5 with
      tim := { (timed .flywheel (some 0) none 5).tim with flyCnt := 4 } })
    (fun t => decide (readRegister t 0x06 = 0x0163) && decide (readRegister t 0x31 = 0x0002)) = true := by decide +kernel
/-- 11.8: the first TX slot after the slip: ABORT goes before the owed PAUSE. -/
theorem test_txSlot : answers (exec .txSlot (within (txSlotOf 0 none [])
      { cfg := { tx := true }, tx := { abortOwed := true }, fl := { asserted := true, pauseOwed := true } }))
    (fun t => decide (t.slot = .inSlot (txSlotOf 0 (some 0b11010110100#11) [])) && (t.chan 0).fl.pauseOwed) = true := by
  decide +kernel
theorem test_echoResult_last : answers (exec .echoResult (within
      (txSlotOf 0 (some (buildWord .last 7)) (wordBits (buildWord .last 7))) (sender [message [9, 7], message [5]] 1 (some (.last 1)))))
    (fun t => decide (readRegister t 0x28 = 0x45FF) && decide ((t.chan 0).tx.offset = 0)) = true := by decide +kernel
/-- A collision at offset 1: r and the collision counter rise, the head restarts with ABORT owed (R87). -/
theorem test_echoResult_collision : answers (exec .echoResult (within
      (txSlotOf 0 (some (buildWord .last 7)) (wordBits 0)) (sender [message [9, 7]] 1 (some (.last 1)))))
    (fun t => decide (readRegister t 0x38 = 0x1100) && decide (readRegister t 0x28 = 0xC5FE)) = true := by decide +kernel
/-- 11.5: byte 33 takes block 1, and the link of block 0 becomes 1. -/
theorem test_rxWord_block : answers (exec .rxWord { within (rxSlotOf 1 (buildWord .data 0x33)) (receiver (openUnit .opened 32) 1) with
      pool := { free := (List.finRange 128).drop 1 }, ring := { reserved := 1 } })
    (fun t => decide (t.pool.links.get 0 = some 1) && decide (t.poolByte 1 0 = 0x33) && decide ((t.chan 1).held = 2) &&
      decide (readRegister t 0x09 = 126)) = true := by decide +kernel
/-- 11.5: the LAST of the message: RX_READY is pending, and the descriptor reads OK with its length. -/
theorem test_rxWord_last : answers (exec .rxWord { within (rxSlotOf 1 (buildWord .last 0x33)) (receiver (openUnit .opened 5) 1) with
      pool := { free := (List.finRange 128).drop 1 }, ring := { reserved := 1 } })
    (fun t => decide (readRegister t 0x0C = 0x8001) && decide (readRegister t 0x0D = 6) && decide (readRegister t 0x31 = 0x0100) &&
      decide (readRegister t 0x0B = 1)) = true := by decide +kernel
/-- 11.7: end 14: the standby drives and raises TOOK_OVER. -/
theorem test_listenWindow : answers (exec .listenWindow { timed .listen none none 5 with
      tim := { (timed .listen none none 5).tim with role := .standby, listenCnt := 1 } })
    (fun t => decide (readRegister t 0x06 = 0x0032) && decide (readRegister t 0x31 = 0x0010)) = true := by decide +kernel
/-- 11.7: end 12: the holdoff of a standby of rank 1 reaches 8. -/
theorem test_holdoffLimit : answers (exec .holdoffLimit { timed .search none none 5 with
      tim := { (timed .search none none 5).tim with role := .standby, rank := 1, holdoffCnt := 7 } })
    (fun t => decide (readRegister t 0x06 = 0x0021) && decide (t.tim.holdoffCnt = 0)) = true := by decide +kernel
theorem test_flywheelExpiry : answers (exec .flywheelExpiry { timed .flywheel (some 0) none 5 with
      tim := { (timed .flywheel (some 0) none 5).tim with flyCnt := 4 } })
    (fun t => decide (readRegister t 0x06 = 0x0123) && decide (readRegister t 0x31 = 0x0002)) = true := by decide +kernel
theorem test_clockLost : answers (exec .clockLost { locked with tim := { locked.tim with edgeMark := false } })
    (fun t => decide (readRegister t 0x06 = 0x0025) && decide (t.tim.flyCnt = 1)) = true := by decide +kernel
theorem test_debounceComplete : answers (exec .debounceComplete { State.reset with tim := { debounce := 7 } })
    (fun t => decide (readRegister t 0x06 = 0x0060) && decide (readRegister t 0x31 = 0x0080)) = true := by decide +kernel
theorem test_gapExpiry : answers (exec (.gapExpiry 1) { (locked.setChan 1 (receiver { openUnit .opened 9 with gap := 15 } 1)) with
      ring := { reserved := 1 } })
    (fun t => decide (readRegister t 0x0C = 0x8011) && decide (readRegister t 0x0D = 9)) = true := by decide +kernel
theorem test_refresh : answers (exec (.refresh 2) (locked.setChan 2 { fl := { asserted := true, refresh := 3 } }))
    (fun t => (t.chan 2).fl.pauseOwed && decide ((t.chan 2).fl.refresh = 0)) = true := by decide +kernel
theorem test_holdExpired : answers (exec (.holdExpired 2) (locked.setChan 2 { fl := { held := true, holdCnt := 15 } }))
    (fun t => !(t.chan 2).fl.held && t.isPending (.holdExpired 2)) = true := by decide +kernel
theorem test_peerAbsent : answers (exec (.peerAbsent 4) { (locked.setPeer 4 { present := true, silence := 7 }) with
      map := { active := bankWith 31 .rx 4 } })
    (fun t => !(t.chan 4).peer.present && t.isPending (.peerChange 4)) = true := by decide +kernel
theorem test_readyTimeout : answers (exec .readyTimeout { locked with
      ring := { entries := [entryOf 1 (some 0)], threshold := 32, timeout := 9, timer := 8 } })
    (fun t => decide (readRegister t 0x31 = 0x0100)) = true := by decide +kernel
theorem test_switch : answers (exec .switch (shadowed .pending 4 .rx 1 locked))
    (fun t => decide (readRegister t 0x15 = 0xC002) && decide (readRegister t 0x31 = 0x0400)) = true := by decide +kernel
theorem test_hwclkRisingEdge : answers (exec (.hwclkRisingEdge true false) { locked with tim := { locked.tim with pulse := false } })
    (fun t => t.tim.pulse && decide (t.tim.pos = 6) && !t.dataSample) = true := by decide +kernel
/-- The sixteenth REFCLK period of a local bit period of 16 ends it (R17). -/
theorem test_idle_generator : answers (step { State.reset with tim := { refdiv := 20 }, gen := { div := 16, ref := 15 } })
    (fun t => decide (t.gen = { div := 20, ref := 0, len := 32, bit := 1 })) = true := by decide +kernel

/-! ### Changes of the input lines (R38, R174) -/

/-- The lines of the host bus at an address, with a data level; both strobes high, CSn low. -/
def selected (a : BitVec 6) (w : Word) : HostBus := { csn := false, addr := a, data := w }

/-- A falling edge of RDn drives CMDSTAT's flag and takes nothing else; while CSn is high it is ignored. -/
theorem test_pin_read :
    answers (step { State.reset with inputs := [.rdn false], bus := selected 0x02 0, cfgReject := true })
      (fun t => decide (t.dataPins = some 0x0004) && decide (t.inputs = []) && t.cfgReject) = true ∧
    answers (step { State.reset with inputs := [.rdn false], bus := { addr := 0x02 }, cfgReject := true })
      (fun t => decide (t.dataPins = none)) = true := by decide +kernel
/-- A rising edge of WRn writes CHSEL; with RDn low beside it nothing is written. -/
theorem test_pin_write :
    answers (step { State.reset with inputs := [.wrn true], bus := { selected 0x16 5 with wrn := false } })
      (fun t => decide (t.chsel = 5)) = true ∧
    answers (step { State.reset with inputs := [.wrn true], bus := { selected 0x16 5 with wrn := false, rdn := false, clash := true } })
      (fun t => decide (t.chsel = 0) && decide (t.dataPins = none)) = true := by decide +kernel
/-- TIMSTAT shows HWSENSE as it stands, before any sample. -/
theorem test_pin_sense : answers (step { State.reset with inputs := [.sense true] })
    (fun t => decide (readRegister t 0x06 = 0x0040) && !t.tim.lineUp) = true := by decide +kernel
/-- Driving begins with a local bit period, whatever the generator stood at: HWCLK low, HWSYNC high (R19, R23). -/
theorem test_listenWindow_pins : answers (exec .listenWindow { timed .listen none none 5 with
      tim := { (timed .listen none none 5).tim with listenCnt := 1 }, gen := { ref := 70, bit := 9 } })
    (fun t => decide (t.hwclkPin = some false) && decide (t.hwsyncPin = some true)) = true := by decide +kernel

/-! ### The slot in progress at a disable (R15) -/

/-- HWDATA stays pulled for the bit period that has begun, and is released from the next; before HWCLK falls it is released. -/
theorem test_disable_releases :
    answers (exec (.timingDisable 0x0400) { within (txSlotOf 0 (some 0) [false]) {} with hwclkLow := true })
      (fun t => t.pullsData && answers (exec (.hwclkRisingEdge false false) t) fun u => !u.pullsData) = true ∧
    answers (exec (.timingDisable 0x0400) (within (txSlotOf 0 (some 0) [false]) {})) (fun t => !t.pullsData) = true := by
  decide +kernel
/-- After DRIVING it is the next bit period of the local generator that releases HWDATA: neither before its start nor after. -/
theorem test_restart_releases :
    let s := { within (txSlotOf 0 (some 0) [false]) {} with
      tim := { (timed .driving (some 0) none 5).tim with pulse := false }, gen := { ref := 49 } }
    answers (exec .timingRestart s) (fun t => t.pullsData &&
      answers (step t) (fun u => u.pullsData) && answers (step { t with gen := { ref := 99 } }) fun u => !u.pullsData) = true := by
  decide +kernel
/-- After SOFT_RESET in LOCKED an end of a local frame period inside the bit period of HWCLK leaves the pull; the second end after it,
with no edge between, releases HWDATA. -/
theorem test_softReset_releases :
    answers (exec .softReset { within (txSlotOf 0 (some 0) [false]) {} with hwclkLow := true }) (fun t =>
      answers (exec (.localFramePeriodEnd false) t) fun u => u.pullsData &&
        answers (exec (.localFramePeriodEnd false) u) fun v => !v.pullsData) = true := by decide +kernel
/-- A fall of HWCLK begins the next bit period of a highway that the part follows. -/
theorem test_fall_releases : answers (step { State.reset with dataHeld := .toLineBit false, inputs := [.hwclkFalls] })
    (fun t => !t.pullsData) = true := by decide +kernel
/-- A slot whose eleven bits have been worked is delivered: the byte is in the descriptor that the abort makes. -/
theorem test_restart_delivers : answers (exec .timingRestart (within (rxSlotOf 1 (buildWord .data 7)) (receiver {} 0)))
    (fun t => decide (readRegister t 0x0C = 0x8021) && decide (readRegister t 0x0D = 1)) = true := by decide +kernel

/-! ## Witnesses: for each statement, states and operands that meet its hypotheses, at the boundaries of its clauses -/

theorem witness_EmptyQueueStepsTheGenerator :
    (let s := { State.reset with resetn := false }; s.pending = [] ∧ s.inputs = [] ∧ s.resetn = false) ∧
    (∀ g ∈ [({ ref := 98 } : Generator), { ref := 99, bit := 350 }, { ref := 99, bit := 351 }],
      let s := { State.reset with gen := g }; s.pending = [] ∧ s.inputs = [] ∧ s.resetn = true) ∧
    (∀ h ∈ [DataHold.released, .toLocalBit, .toLineBit false, .toLineBit true],
      let s := { State.reset with gen := { ref := 99, bit := 350 }, dataHeld := h }; s.pending = [] ∧ s.resetn = true) ∧
    98 + 1 < State.reset.gen.div ∧ State.reset.gen.div ≤ 99 + 1 ∧ 350 + 1 < 11 * State.reset.gen.len ∧
    11 * State.reset.gen.len ≤ 351 + 1 := by decide +kernel

theorem witness_BusStrobesAreAccesses :
    (∀ r : Bool, { State.reset with resetn := r }.pending = []) ∧ State.reset.resetn = true ∧
    (let b := { selected 0x16 5 with wrn := false }
     b.csn = false ∧ b.wrn = false ∧ b.rdn = true ∧ b.clash = false ∧ b.writeTaken true = true) ∧
    (∀ a ∈ ([0x10, 0x13, 0x30, 0x06, 0x3F] : List (BitVec 6)), let b := selected a 0
     b.csn = false ∧ b.rdn = true ∧ b.wrn = true ∧ b.addr = a ∧ b.readTaken false = true) ∧
    (let b := { selected 0x16 5 with wrn := false, rdn := false, clash := true }
     b.csn = false ∧ b.rdn = false ∧ b.wrn = false ∧ b.clash = true ∧ b.writeTaken true = false) ∧
    (let b := { selected 0x16 5 with wrn := false, clash := true }; b.rdn = true ∧ b.writeTaken true = false) ∧
    (let b : HostBus := { wrn := false }; b.csn = true ∧ b.writeTaken true = false) ∧
    (let b := selected 0x16 5; b.csn = false ∧ b.rdn = true ∧ b.wrn = true ∧ b.clash = false) ∧
    (let b := { selected 0x16 5 with rdn := false, clash := true }; b.csn = false ∧ b.clash = true ∧ b.wrn = true) ∧
    { State.reset with bus := { selected 0x06 0 with rdn := false, reading := true }, readData := 7 }.dataPins = some 7 := by
  decide +kernel

theorem witness_HostWriteNamesItsRow :
    ∀ p ∈ [(Instr.commit, (0x01 : BitVec 6), (0x0001 : Word)), (.unknownCommand 0x30, 0x01, 0x0030), (.flush 7, 0x01, 0x0017),
        (.chcfgWrite 7 5, 0x1F, 5), (.txdata 7 5, 0x27, 5), (.registerWrite 0x04 5, 0x04, 5)],
      p.1.wf = true ∧ p.1.changesEnable = false ∧ busWrite p.1 = some p.2 := by decide

theorem witness_HostWriteRowsActAsTheirWrite :
    ∀ p ∈ [(Instr.softReset, (0x01 : BitVec 6), (0x000F : Word)), (.timingEnable 0x8400, 0x04, 0x8400),
        (.fcEnableClear 0, 0x18, 0)], busWrite p.1 = some p.2 := by decide

theorem witness_SlotWordsAreReadAsSent :
    (0 : SlotWord) ≠ BitVec.allOnes 11 ∧ (wordBits (0 : SlotWord)).count true % 2 = 0 ∧
    (1 : SlotWord) ≠ BitVec.allOnes 11 ∧ (wordBits (1 : SlotWord)).count true % 2 = 1 := by decide

theorem witness_HardResetHoldsUntilRelease :
    let s := { State.reset with resetn := false }
    s.resetn = false ∧ Instr.softReset ≠ .resetAssert ∧ Instr.softReset ≠ .resetRelease := by decide +kernel

theorem witness_SoftResetKeepsConfiguration :
    locked.resetn = true ∧ locked.map.commit = .idle ∧
    (let s := shadowed .pending 0 .rx 0 locked; s.resetn = true ∧ s.map.commit = .pending) ∧
    (let s := within { txSlotOf 0 (some 0) (List.replicate 11 true) with number := 0 } {}
     s.resetn = true ∧ s.slotOver = true) ∧
    (let s := within (txSlotOf 0 (some 0) [false]) {}
     s.resetn = true ∧ s.dataHeld = .released ∧ ({ s with hwclkLow := true }.pullsData && { s with hwclkLow := true }.bitBegun) = true) := by
  decide +kernel

theorem witness_CommitRefused :
    (let s := shadowed .pending 0 .rx 0 locked; s.resetn = true ∧ s.map.commit = .pending) ∧
    (let s := { locked with map := { shadow := { len := 2 } } }
     s.resetn = true ∧ s.map.commit = .idle ∧ s.map.shadow.len ≠ s.map.active.len ∧ s.tim.st ≠ .off) ∧
    (let s := { State.reset with map := { shadow := { bankWith 31 .tx 0 with len := 2 } } }
     let beyond := fun k : Nat => s.map.shadow.slots ≤ k ∧ (s.map.shadow.entry k).mode ≠ .unused
     s.resetn = true ∧ s.map.commit = .idle ∧ s.tim.st = .off ∧ beyond 31 ∧ ∀ j : Fin 32, j < 31 → ¬ beyond j) ∧
    (let s := (shadowed .idle 0 .rx 7 locked).setChan 7 { cfg := { rx := true, fc := true } }
     let noPath := fun c : Chan => (s.chan c).cfg.rx = true ∧ (s.chan c).cfg.fc = true ∧
       s.map.shadow.gives .rx c = true ∧ s.map.shadow.gives .tx c = false
     s.resetn = true ∧ s.map.commit = .idle ∧ s.map.shadow.len = s.map.active.len ∧
     (∀ k : Fin 32, ¬ (s.map.shadow.slots ≤ k.val ∧ (s.map.shadow.entry k.val).mode ≠ .unused)) ∧
     noPath 7 ∧ ∀ d, d < 7 → ¬ noPath d) := by decide +kernel

theorem witness_CommitAccepted :
    ∀ s ∈ [shadowed .idle 31 .tx 7 locked, shadowed .idle 31 .tx 7 (timed .driving (some 0) none 5),
        shadowed .idle 31 .tx 7 (timed .flywheel (some 0) none 5), shadowed .idle 31 .tx 7 (timed .listen none none 5),
        shadowed .idle 31 .tx 7 (timed .search none none 5), { State.reset with map := { shadow := { len := 0 } } }],
      s.resetn = true ∧ s.map.commit = .idle ∧ (s.map.shadow.len = s.map.active.len ∨ s.tim.st = .off) ∧
      (∀ k : Fin 32, s.map.shadow.slots ≤ k.val → (s.map.shadow.entry k.val).mode = .unused) ∧
      (∀ c, (s.chan c).cfg.rx = true → (s.chan c).cfg.fc = true →
        s.map.shadow.gives .rx c = true → s.map.shadow.gives .tx c = true) := by decide +kernel

theorem witness_CancelEndsPendingCommit :
    locked.resetn = true ∧ locked.map.commit = .idle ∧
    (let s := shadowed .pending 0 .rx 0 locked; s.resetn = true ∧ s.map.commit = .pending) := by decide +kernel

theorem witness_MapWritesStoreInShadow :
    let code := fun w : Word => (w.extractLsb' 8 2).toNat
    (let s := shadowed .pending 0 .rx 0 locked; s.resetn = true ∧ s.map.commit = .pending) ∧
    (let s := { State.reset with map := { selActive := true } }
     s.resetn = true ∧ s.map.commit = .idle ∧ s.map.selActive = true) ∧
    (let s := { State.reset with map := { index := 31, autoInc := true } }
     s.resetn = true ∧ s.map.commit = .idle ∧ s.map.selActive = false ∧ code 0x0300 = 3 ∧ code 0x0200 ≠ 3 ∧
       code 0x0007 = 0) := by decide +kernel

theorem witness_MapdataReadReturnsEntry :
    let s := { State.reset with map := { active := { len := 0 }, selActive := true, index := 8 } }
    s.resetn = true ∧ s.map.selActive = true ∧ s.map.active.slots ≤ s.map.index.val ∧
      s.map.active.withinFrame ∧ s.map.active.unusedZero := by
  refine ⟨by decide, by decide, by decide +kernel, fun k hk => ?_, by unfold Bank.unusedZero; decide +kernel⟩
  simp only [Bank.entry]
  split
  · rename_i h
    exact (by decide +kernel : ∀ i : Fin 32, ((Vector.replicate 32 ({} : MapEntry)).get i).mode = .unused) ⟨k, h⟩
  · rfl

theorem witness_SwitchTakesShadow :
    locked.map.commit = .idle ∧
    (let s := (shadowed .pending 0 .rx 1 locked).setChan 0
       { sender [message [1, 2]] 1 none with rx := openUnit .opened 1, peer := { present := true } }
     s.resetn = true ∧ s.map.commit = .pending ∧
     s.map.shadow.gives .tx 0 = false ∧ s.map.shadow.gives .rx 0 = false ∧ s.map.shadow.gives .rx 1 = true ∧
     (s.chan 0).rx.reserves = true ∧ (s.chan 1).rx.reserves = false ∧
     (s.chan 0).peer.present = true) ∧
    (shadowed .pending 0 .tx 1 locked).map.shadow.gives .tx 1 = true := by decide +kernel

theorem witness_TimcfgEnablesOrRejects :
    let role := fun w : Word => (w.extractLsb' 0 2).toNat
    let rank := fun w : Word => (w.extractLsb' 4 3).toNat
    let limit := fun w : Word => (w.extractLsb' 8 4).toNat
    limit 0x8000 = 0 ∧ role 0x8403 = 3 ∧
    (locked.resetn = true ∧ locked.tim.enable = true ∧ role 0x8401 ≠ locked.tim.role.code ∧
      rank 0x8410 ≠ locked.tim.rank.val) ∧
    (limit 0x8F72 ≠ 0 ∧ role 0x8F72 ≠ 3 ∧ State.reset.tim.enable = false ∧ (0x8F72 : Word).getLsbD 15 = true) ∧
    (limit 0x8100 ≠ 0 ∧ role 0x8100 ≠ 3 ∧ locked.tim.enable = (0x8100 : Word).getLsbD 15 ∧
      role 0x8100 = locked.tim.role.code ∧ rank 0x8100 = locked.tim.rank.val) ∧
    (limit 0x0172 ≠ 0 ∧ role 0x0172 ≠ 3 ∧ State.reset.tim.enable = (0x0172 : Word).getLsbD 15) := by decide +kernel

/-- LOCKED in an RX slot of channel 1 whose eleven bits make a DATA word: its result is due. -/
def rxOver : State := within (rxSlotOf 1 (buildWord .data 7)) { cfg := { rx := true } }

/-- LOCKED in a TX slot of channel 0 that pulls HWDATA low, HWCLK low or high. -/
def txPulling (low : Bool) : State := { within (txSlotOf 0 (some 0) [false]) {} with hwclkLow := low }

theorem witness_TimingDisableEndsInOff :
    (∀ s ∈ [locked, shadowed .pending 0 .rx 0 locked, timed .driving (some 0) none 5, timed .flywheel (some 0) none 5,
        timed .search none none 5, timed .listen none none 5, txPulling true],
      s.resetn = true ∧ s.tim.enable = true ∧ (0x0F00 : Word).getLsbD 15 = false ∧
      ((0x0F00 : Word).extractLsb' 8 4).toNat ≠ 0 ∧ ((0x0F00 : Word).extractLsb' 0 2).toNat = s.tim.role.code ∧
      ((0x0F00 : Word).extractLsb' 4 3).toNat = s.tim.rank.val ∧ s.slotOver = false) ∧
    (rxOver.tim.enable = true ∧ rxOver.slotOver = true ∧ rxOver.tim.role.code = 0 ∧ rxOver.tim.rank.val = 0) ∧
    (timed .search none none 5).map.commit = .idle ∧ (timed .listen none none 5).map.commit = .idle := by decide +kernel

theorem witness_TimingRestartReenters :
    (State.reset.resetn = true ∧ State.reset.tim.st = .off) ∧
    (∀ s ∈ [locked, timed .driving (some 0) none 5, timed .flywheel (some 0) none 5, timed .search none none 5,
        timed .listen none none 5, txPulling true], s.resetn = true ∧ s.tim.st ≠ .off ∧ s.slotOver = false) ∧
    (rxOver.tim.st = .locked ∧ rxOver.slotOver = true) ∧
    (timed .search none none 5).map.commit = .idle ∧ (timed .listen none none 5).map.commit = .idle := by decide +kernel

theorem witness_PulseInListenAndSearch :
    (let s := timed .listen none none 5; s.resetn = true ∧ s.tim.pulse = true ∧ s.tim.st = .listen) ∧
    (let s := timed .search (some 1) none 352
     s.tim.pulse = true ∧ s.tim.st = .search ∧ ∀ a, s.tim.align = some a → a + 11 * s.map.active.slots ≠ s.tim.pos) ∧
    (let s := timed .search (some 0) none 352
     s.tim.pulse = true ∧ s.tim.st = .search ∧ s.tim.align = some 0 ∧ 0 + 11 * s.map.active.slots = s.tim.pos) := by
  refine ⟨by decide, ⟨rfl, rfl, ?_⟩, by decide⟩
  intro a h
  cases h
  decide

theorem witness_PulseKeepsLockOrIsStray :
    (let s := timed .locked (some 0) none 1
     s.resetn = true ∧ s.tim.pulse = true ∧ s.tim.align = some 0 ∧ s.tim.st = .locked ∧ s.tim.pos ≠ 0 ∧
       s.tim.pos ≠ 0 + 11 * s.map.active.slots ∧ ∀ p, s.tim.cand = some p → p + 11 * s.map.active.slots ≠ s.tim.pos) ∧
    (let s := timed .locked (some 0) none 0; s.tim.st = .locked ∧ s.tim.pos = 0) ∧
    (let s := { timed .locked (some 0) none 352 with slot := .frameDone }
     s.tim.st = .locked ∧ s.tim.pos = 0 + 11 * s.map.active.slots ∧ s.slot = .frameDone) ∧
    (let s := timed .flywheel (some 0) none 353
     s.tim.st = .flywheel ∧ ¬ (0 ≤ s.tim.pos ∧ 11 * s.map.active.slots ∣ s.tim.pos - 0) ∧
       ∀ p, s.tim.cand = some p → p + 11 * s.map.active.slots ≠ s.tim.pos) ∧
    (let s := timed .flywheel (some 0) none 704
     s.tim.st = .flywheel ∧ 0 ≤ s.tim.pos ∧ 11 * s.map.active.slots ∣ s.tim.pos - 0) := by
  refine ⟨⟨rfl, rfl, rfl, rfl, by decide, by decide, nofun⟩, by decide, by decide, ⟨rfl, by decide, nofun⟩, by decide⟩

theorem witness_PulseThatEndsTheAlignment :
    (let s := timed .locked (some 352) (some 1) 353
     s.resetn = true ∧ s.tim.pulse = true ∧ s.tim.align = some 352 ∧ s.tim.cand = some 1 ∧
       1 + 11 * s.map.active.slots = s.tim.pos ∧ s.tim.st = .locked ∧ s.tim.pos ≠ 352 ∧
       s.tim.pos ≠ 352 + 11 * s.map.active.slots) ∧
    (let s := timed .flywheel (some 0) (some 1) 353
     s.tim.align = some 0 ∧ s.tim.cand = some 1 ∧ 1 + 11 * s.map.active.slots = s.tim.pos ∧ s.tim.st = .flywheel ∧
       ¬ (0 ≤ s.tim.pos ∧ 11 * s.map.active.slots ∣ s.tim.pos - 0)) ∧
    (let s := timed .driving (some 0) none 352
     s.tim.pulse = true ∧ s.tim.st = .driving ∧ s.tim.align = some 0 ∧ 0 ≤ s.tim.pos ∧ 11 * s.map.active.slots ∣ s.tim.pos - 0) ∧
    (let s := timed .driving (some 0) none 353
     s.tim.st = .driving ∧ ¬ (0 ≤ s.tim.pos ∧ 11 * s.map.active.slots ∣ s.tim.pos - 0)) := by decide

theorem witness_RisingEdgeCountsAndSamples :
    locked.resetn = true ∧ locked.slotOver = false ∧ rxOver.slotOver = true ∧ (txPulling true).slotOver = false ∧ (∀ x, locked.slot ≠ .inSlot x) ∧
    (let x := txSlotOf 0 none (List.replicate 10 true); x.bits.length < 11 ∧ x.work ≠ .unused) ∧
    (let x := { txSlotOf 0 none (List.replicate 9 true) with work := .unused }; x.bits.length < 10) ∧
    (let x := { txSlotOf 0 none (List.replicate 10 true) with work := .unused }; x.bits.length = 10 ∧ x.work = .unused) ∧
    (let s := timed .driving (some 0) none 351; s.tim.st = .driving ∧ s.gen.bit = 0 ∧ s.hwsyncPin = some true) ∧
    (let s := { timed .driving (some 0) none 5 with gen := { bit := 1 } }; s.tim.st = .driving ∧ s.hwsyncPin = some false) ∧
    State.reset.tim.st ≠ .driving := by
  refine ⟨rfl, rfl, by decide +kernel, by decide +kernel, nofun, by decide, by decide, by decide, by decide +kernel,
    by decide +kernel, by decide⟩

theorem witness_FrameBoundaryEndsTheFrame :
    (frameEnd.resetn = true ∧ frameEnd.slot = .frameDone ∧ frameEnd.tim.st = .locked ∧ frameEnd.tim.cand = none ∧
      frameEnd.map.commit = .idle) ∧
    (let s := shadowed .pending 0 .rx 0 { timed .locked (some 0) (some 9) 352 with slot := .frameDone }
     s.slot = .frameDone ∧ s.map.commit = .pending ∧ s.map.shadow.len = s.map.active.len ∧ s.tim.cand.isSome = true ∧
       s.tim.bridge = false) ∧
    (let s := { frameEnd with tim := { frameEnd.tim with cand := some 9, bridge := true } }
     s.slot = .frameDone ∧ s.tim.st = .locked ∧ s.tim.bridge = true) ∧
    (let s := { frameEnd with tim := { frameEnd.tim with st := .driving } }; s.slot = .frameDone ∧ s.tim.st = .driving) := by
  decide +kernel

/-- Channel 0 at a frame boundary, with its receive unit, peer presence and flow unit. -/
def boundaryChannel (u : RxUnit) (p : Peer) (f : FlowUnit) : Channel := (frameEnd.setChan 0 { rx := u, peer := p, fl := f }).chan 0

theorem witness_FrameBoundaryStepsTimers :
    frameEnd.resetn = true ∧ frameEnd.slot = .frameDone ∧ frameEnd.tim.st = .locked ∧ frameEnd.map.commit = .idle ∧
    (let x := boundaryChannel { openUnit .opened 1 with gap := 15 } {} { refresh := 2, held := true, holdCnt := 14 }
     x.fl.asserted = false ∧ x.fl.held = true ∧ x.fl.holdCnt + 1 < x.cfg.h ∧ x.rx.st ≠ .idle ∧ x.rx.seen = false ∧
       x.cfg.gapLimit ≠ 0 ∧ x.cfg.gapLimit ≤ min 255 (x.rx.gap + 1)) ∧
    (let x := boundaryChannel { openUnit .opened 1 with gap := 14 } { mark := true } { asserted := true, refresh := 2 }
     x.fl.asserted = true ∧ x.fl.refresh + 1 < x.cfg.p ∧ x.fl.held = false ∧ x.peer.mark = true ∧ x.rx.seen = false) ∧
    (let x := boundaryChannel { openUnit .opened 1 with gap := 14 } { present := true, silence := 7 }
       { asserted := true, refresh := 3, held := true, holdCnt := 15 }
     x.cfg.p ≤ x.fl.refresh + 1 ∧ x.cfg.h ≤ x.fl.holdCnt + 1 ∧ x.peer.mark = false) ∧
    (let x := boundaryChannel { openUnit .opened 1 with gap := 14 } {} {}
     x.fl.asserted = false ∧ min 255 (x.rx.gap + 1) < x.cfg.gapLimit) ∧
    (let x := boundaryChannel { openUnit .opened 1 with seen := true } {} {}; x.rx.st ≠ .idle ∧ x.rx.seen = true) ∧
    (let s := { frameEnd with map := { active := bankWith 31 .rx 0 } }
     s.map.active.gives .rx 0 = true ∧ s.map.active.gives .rx 1 = false ∧ (∀ c, (s.chan c).rx.st = .idle)) := by decide +kernel

theorem witness_ListenAndHoldoffLimits :
    (let s := { timed .listen none none 5 with tim := { (timed .listen none none 5).tim with listenCnt := 1 } }
     s.resetn = true ∧ s.tim.st = .listen ∧ s.tim.listenCnt = 1 ∧ 1 ≤ s.tim.refdiv) ∧
    (let s := { timed .search none none 5 with
        tim := { (timed .search none none 5).tim with role := .standby, rank := 7, holdoffCnt := 31 } }
     s.tim.st = .search ∧ s.tim.role = .standby ∧ s.tim.lineUp = true ∧ s.tim.holdoffCnt + 1 = (s.tim.rank.val + 1) * 4) ∧
    (let s := timed .listen none none 5; s.tim.listenCnt = 0 ∧ s.tim.st ≠ .search) ∧
    (let s := { timed .search none none 5 with tim := { (timed .search none none 5).tim with role := .standby, holdoffCnt := 2 } }
     s.tim.st ≠ .listen ∧ s.tim.holdoffCnt + 1 < (s.tim.rank.val + 1) * 4) := by decide

theorem witness_FlywheelExpiryAndClockLoss :
    (let s := { timed .flywheel (some 0) none 5 with tim := { (timed .flywheel (some 0) none 5).tim with flyCnt := 4 } }
     s.resetn = true ∧ s.tim.st = .flywheel ∧ s.tim.limit ≤ s.tim.flyCnt ∧ s.tim.lineUp = true ∧ s.tim.debounce = 0) ∧
    (let s := { timed .flywheel (some 0) none 5 with
        tim := { (timed .flywheel (some 0) none 5).tim with flyCnt := 4, debounce := 1 } }
     s.tim.limit ≤ s.tim.flyCnt ∧ s.tim.lineUp = true ∧ s.tim.debounce ≠ 0) ∧
    (let s := { timed .flywheel (some 0) none 5 with
        tim := { (timed .flywheel (some 0) none 5).tim with flyCnt := 4, lineUp := false } }
     s.tim.limit ≤ s.tim.flyCnt ∧ s.tim.lineUp = false) ∧
    (let s := { locked with tim := { locked.tim with edgeMark := false } }
     s.resetn = true ∧ s.tim.st = .locked ∧ s.tim.edgeMark = false ∧ s.slotOver = false) ∧
    (let s := { rxOver with tim := { rxOver.tim with edgeMark := false } }
     s.tim.st = .locked ∧ s.tim.edgeMark = false ∧ s.slotOver = true) ∧
    (let s := { txPulling true with tim := { (txPulling true).tim with edgeMark := false } }
     s.resetn = true ∧ s.tim.st = .locked ∧ s.slotOver = false ∧ s.dataHeld = .released ∧ (s.pullsData && s.bitBegun) = true) ∧
    (let s := { timed .flywheel (some 0) none 5 with tim := { (timed .flywheel (some 0) none 5).tim with flyCnt := 3 } }
     s.tim.flyCnt < s.tim.limit) ∧
    locked.tim.st ≠ .flywheel ∧ locked.tim.edgeMark = true := by decide +kernel

theorem witness_DebounceChangesTheLine :
    let s := { State.reset with tim := { debounce := 7, lineUp := true, deferred := true } }
    s.resetn = true ∧ s.tim.debounce = 7 := by decide

theorem witness_LocalPeriodEndSteps :
    (∀ s ∈ [State.reset, locked, timed .listen none none 5,
        { timed .search none none 5 with
          tim := { (timed .search none none 5).tim with role := .standby, holdoffCnt := 2, debounce := 6, deferred := true } },
        { timed .flywheel (some 0) none 5 with tim := { (timed .flywheel (some 0) none 5).tim with flyCnt := 3 } }],
      s.resetn = true ∧ s.tim.debounce < 7 ∧ s.tim.st ≠ .driving ∧ (s.tim.st = .listen → s.tim.listenCnt = 0) ∧
      (s.tim.st = .search → s.tim.holdoffCnt + 1 < (s.tim.rank.val + 1) * 4) ∧
      (s.tim.st = .flywheel → s.tim.flyCnt < s.tim.limit) ∧ (s.tim.st = .locked → s.tim.edgeMark = true)) ∧
    (let s := { timed .listen none none 5 with tim := { (timed .listen none none 5).tim with listenCnt := 1 } }
     s.resetn = true ∧ s.tim.st = .listen ∧ s.tim.listenCnt = 1) ∧
    (let s := { timed .search none none 5 with tim := { (timed .search none none 5).tim with role := .standby, holdoffCnt := 3 } }
     s.tim.st = .search ∧ s.tim.role = .standby ∧ s.tim.lineUp = true ∧ s.tim.holdoffCnt + 1 = (s.tim.rank.val + 1) * 4) ∧
    (let s := { timed .flywheel (some 0) none 5 with tim := { (timed .flywheel (some 0) none 5).tim with flyCnt := 4 } }
     s.tim.st = .flywheel ∧ s.tim.limit ≤ s.tim.flyCnt) ∧
    (let s := { locked with tim := { locked.tim with edgeMark := false } }; s.tim.st = .locked ∧ s.tim.edgeMark = false) ∧
    (let s := { timed .driving (some 0) none 5 with slot := .frameDone }; s.tim.st = .driving ∧ s.slot = .frameDone) ∧
    (timed .driving (some 0) none 5).slot ≠ .frameDone ∧
    (∀ h ∈ [DataHold.released, .toLocalBit, .toLineBit false, .toLineBit true],
      let s := { State.reset with dataHeld := h, tim := { debounce := 7 } }; s.resetn = true ∧ s.tim.debounce = 7 ∧ s.tim.st = .off) ∧
    (∀ up : Bool, let s := { timed .flywheel (some 0) none 5 with
        tim := { (timed .flywheel (some 0) none 5).tim with flyCnt := 4, debounce := 7, lineUp := !up, deferred := true } }
     s.resetn = true ∧ s.tim.debounce = 7 ∧ s.tim.st = .flywheel ∧ s.tim.limit ≤ s.tim.flyCnt) ∧
    (∀ n ∈ [30, 31], let s := { timed .search none none 5 with
        tim := { (timed .search none none 5).tim with role := .standby, rank := 7, holdoffCnt := n, debounce := 7, deferred := true } }
     s.resetn = true ∧ s.tim.debounce = 7 ∧ s.tim.st = .search ∧ s.tim.role = .standby ∧ s.tim.lineUp = true ∧
       s.tim.holdoffCnt + 1 = n + 1 ∧ (s.tim.rank.val + 1) * 4 = 32) := by decide +kernel

theorem witness_GapExpiryEndsTheMessage :
    ∀ st ∈ [RxState.opened, .truncating, .overrun, .starved],
      let s := locked.setChan 1 (receiver { openUnit st 9 with gap := 15 } 1)
      let x := s.chan 1
      s.resetn = true ∧ s.tim.st = .locked ∧ x.rx.st ≠ .idle ∧ x.rx.seen = false ∧ x.fl.asserted = false ∧
        x.cfg.gapLimit ≠ 0 ∧ x.cfg.gapLimit ≤ min 255 (x.rx.gap + 1) := by decide +kernel

theorem witness_BoundaryLimitsAct :
    (let s := locked.setChan 1 { fl := { asserted := true, refresh := 3, held := true, holdCnt := 15 } }
     s.resetn = true ∧ s.tim.st = .locked ∧ (s.chan 1).fl.asserted = true ∧ (s.chan 1).cfg.p ≤ (s.chan 1).fl.refresh + 1 ∧
       (s.chan 1).fl.held = true ∧ (s.chan 1).cfg.h ≤ (s.chan 1).fl.holdCnt + 1) ∧
    (let s := locked.setChan 1 { fl := { asserted := true, refresh := 2, held := true, holdCnt := 14 } }
     (s.chan 1).fl.refresh + 1 < (s.chan 1).cfg.p ∧ (s.chan 1).fl.holdCnt + 1 < (s.chan 1).cfg.h) ∧
    (let s := { (locked.setPeer 1 { present := true, silence := 7 }) with
       map := { active := bankWith 31 .rx 1 }, ring := { entries := [entryOf 1 (some 0)], timeout := 255, timer := 254 } }
     s.resetn = true ∧ s.tim.st = .locked ∧ s.map.active.gives .rx 1 = true ∧ (s.chan 1).peer.present = true ∧
       (s.chan 1).peer.mark = false ∧ (s.chan 1).peer.silence = 7 ∧ s.ring.entries ≠ [] ∧ s.ring.timeout ≠ 0 ∧
       s.ring.timeout ≤ 255 ∧ s.ring.timer + 1 = s.ring.timeout) ∧
    (locked.map.active.gives .rx 1 = false ∧ locked.ring.entries = []) := by decide +kernel

theorem witness_TxSlotChoosesWord :
    let x := txSlotOf 0 none []
    (∀ y ∈ [sender [message [1, 2]] 1 none, { sender [] 0 none with tx := { abortOwed := true } }], let s := within x y
      s.resetn = true ∧ s.slot = .inSlot x ∧ x.work = .tx ∧ x.word = none ∧ (s.chan x.entry.chan).cfg.tx = true) ∧
    (let y := (within x { sender [] 0 none with tx := { abortOwed := true } }).chan 0; y.cfg.tx = true ∧ y.tx.abortOwed = true) ∧
    (let y := (within x { fl := { pauseOwed := true } }).chan 0; y.cfg.tx = false ∧ y.fl.pauseOwed = true) ∧
    (let y := (within x { fl := { resumeOwed := true } }).chan 0; y.fl.pauseOwed = false ∧ y.fl.resumeOwed = true) ∧
    (let y := (within x (sender [message [1, 2]] 0 none)).chan 0
     y.fl.pauseOwed = false ∧ y.fl.resumeOwed = false ∧ y.fl.held = false ∧ y.tx.abortOwed = false ∧
       y.tx.records.head? = some (message [1, 2]) ∧ (message [1, 2]).closed = true ∧
       y.tx.offset + 1 < (message [1, 2]).bytes.length) ∧
    (let y := (within x (sender [message [1, 2]] 1 none)).chan 0
     y.tx.records.head? = some (message [1, 2]) ∧ y.tx.offset + 1 = (message [1, 2]).bytes.length) ∧
    (let y := (within x { sender [message [1, 2]] 1 none with fl := { held := true } }).chan 0
     y.tx.abortOwed = false ∧ y.fl.pauseOwed = false ∧ y.fl.resumeOwed = false ∧
       ¬ (y.cfg.tx = true ∧ y.fl.held = false ∧ y.tx.abortOwed = false)) := by decide +kernel

theorem witness_MatchedEchoIsApplied :
    ∀ p ∈ [(TxKind.data 1, buildWord .data 2), (.last 2, buildWord .last 3), (.abort, buildWord .ctrl 0x5A), (.idle, 0),
        (.pause, buildWord .ctrl 0x3C), (.resume, buildWord .ctrl 0xC3)], ∀ b : Bool,
      let x := txSlotOf 0 (some p.2) (wordBits p.2)
      let y : Channel := sender [message [1, 2, 3]] 1 (some p.1)
      let s := within x { y with tx := { y.tx with dropAfter := b } }
      s.resetn = true ∧ s.slot = .inSlot x ∧ x.work = .tx ∧ x.word = some p.2 ∧ x.bits = wordBits p.2 ∧
        (s.chan 0).tx.flight = some { kind := p.1, orphan := false } ∧ (s.chan 0).tx.testDue = false ∧
        (s.chan 0).tx.dropAfter = b := by decide +kernel

theorem witness_CollisionClimbsTheLadder :
    ∀ n ∈ [0, 3], let x := txSlotOf 0 (some (buildWord .data 2)) (wordBits 0)
      let y : Channel := sender [message [1, 2, 3]] 1 (some (.data 1))
      let s := within x { y with tx := { y.tx with r := n, coll := n } }
      s.resetn = true ∧ s.slot = .inSlot x ∧ x.work = .tx ∧ x.word = some (buildWord .data 2) ∧ x.bits.length = 11 ∧
        x.bits ≠ wordBits (buildWord .data 2) ∧ (s.chan 0).tx.flight = some { kind := .data 1, orphan := false } ∧
        (s.chan 0).tx.testDue = false ∧ (s.chan 0).cfg.tx = true := by decide +kernel

theorem witness_StrayEchoIsNoCollision :
    ∀ b : Bool, let x := txSlotOf 0 (some (buildWord .data 2)) (wordBits 0)
      let y : Channel := sender [message [1, 2, 3]] 1 (some (.data 1))
      let s := within x { y with cfg := {}, tx := { y.tx with testDue := b } }
      s.resetn = true ∧ s.slot = .inSlot x ∧ x.work = .tx ∧ x.word = some (buildWord .data 2) ∧ x.bits.length = 11 ∧
        x.bits ≠ wordBits (buildWord .data 2) ∧ (s.chan 0).tx.flight = some { kind := .data 1, orphan := false } ∧
        (s.chan 0).cfg.tx = false := by decide +kernel

/-- An open record of n bytes. -/
def openRecord (n : Nat) (poisoned : Bool) : TxRecord := { bytes := List.replicate n 7, closed := false, poisoned := poisoned }

theorem witness_TxdataByteAccepted :
    (∀ b : Bool, let s := State.reset.setChan 2 (sender [openRecord 511 b] 0 none)
      s.resetn = true ∧ ((s.chan 2).tx.records.map fun r => r.bytes.length).sum < 512 ∧
        (s.chan 2).tx.records = [] ++ [openRecord 511 b] ∧ (openRecord 511 b).closed = false ∧ (openRecord 511 b).poisoned = b) ∧
    (∀ b : Bool, let s := State.reset.setChan 2 { tx := { records := List.replicate 7 (message [1]), lone := b } }
      ((s.chan 2).tx.records.map fun r => r.bytes.length).sum < 512 ∧ (s.chan 2).tx.records.getLast? = some (message [1]) ∧ (message [1]).closed = true ∧
        (s.chan 2).tx.records.length < 8 ∧ (s.chan 2).tx.lone = b) ∧
    (0x01FF : Word).getLsbD 8 = true ∧ (0x00FF : Word).getLsbD 8 = false := by decide +kernel

theorem witness_TxdataByteRefused :
    (let s := State.reset.setChan 2 (sender [message [1], openRecord 511 false] 0 none)
     s.resetn = true ∧ 512 ≤ ((s.chan 2).tx.records.map fun r => r.bytes.length).sum ∧
       (s.chan 2).tx.records = [message [1]] ++ [openRecord 511 false] ∧ (openRecord 511 false).closed = false) ∧
    (let s := State.reset.setChan 2 (sender (List.replicate 8 (message [1])) 0 none)
     (s.chan 2).tx.records.getLast? = some (message [1]) ∧ (message [1]).closed = true ∧ 8 ≤ (s.chan 2).tx.records.length) := by decide +kernel

theorem witness_RxSlotMarksAndFlowWords :
    (∀ p ∈ [((0x7FF : SlotWord), RxClass.silent), (0, .idle), (buildWord .ctrl 0x00, .unknownCtrl),
        (buildWord .ctrl 0x3C, .pause), (buildWord .ctrl 0xC3, .resume)],
      let x := rxSlotOf 1 p.1
      let s := within x { cfg := { fc := true }, fl := { held := true } }
      s.resetn = true ∧ s.slot = .inSlot x ∧ x.work = .rx ∧ x.bits.length = 11 ∧ classify (wordOfBits x.bits) = p.2) := by
  decide +kernel

theorem witness_RxSlotIgnoredCorruptAndAbort :
    (∀ p ∈ [(buildWord .data 1, RxClass.data 1), (1, .corrupt), (buildWord .ctrl 0x5A, .abort)],
      ∀ st ∈ [RxState.idle, .opened, .truncating, .overrun, .starved], ∀ b : Bool,
      let x := rxSlotOf 1 p.1
      let s := within x { (receiver (openUnit st 9) 1) with cfg := { rx := b } }
      s.resetn = true ∧ s.slot = .inSlot x ∧ x.work = .rx ∧ x.bits.length = 11 ∧ classify (wordOfBits x.bits) = p.2 ∧
        (s.chan 1).cfg.rx = b ∧ (s.chan 1).rx.st = st) := by decide +kernel

theorem witness_FirstByteOpensOrStarves :
    let x := rxSlotOf 1 (buildWord .data 0xFF)
    let s := within x (receiver {} 15)
    (s.resetn = true ∧ s.slot = .inSlot x ∧ x.work = .rx ∧ x.bits.length = 11 ∧ classify (wordOfBits x.bits) = .data 0xFF ∧
      (s.chan 1).cfg.rx = true ∧ (s.chan 1).rx.st = .idle ∧ (s.chan 1).rx.len = 0 ∧ (s.chan 1).rx.cur = none ∧
      (s.chan 1).rx.first = none ∧ 1 ≤ (s.chan 1).cfg.maxLen) ∧
    (let r := { s with ring := { reserved := 32 } }; 32 ≤ r.ring.entries.length + r.ring.reserved) ∧
    (let r := { s with ring := { reserved := 31 } }
     r.ring.entries.length + r.ring.reserved < 32 ∧ (r.chan 1).held < (r.chan 1).cfg.quota ∧
       r.pool.free = 0 :: (List.finRange 128).drop 1) ∧
    ((within x (receiver {} 16)).chan 1).cfg.quota ≤ ((within x (receiver {} 16)).chan 1).held := by decide +kernel

theorem witness_NextByteIsStored :
    let x := rxSlotOf 1 (buildWord .data 0xFF)
    (∀ n ∈ [31, 32], ∀ h ∈ [15, 16], let s := { within x (receiver (openUnit .opened n) h) with pool := { free := [5, 6] } }
      s.resetn = true ∧ s.slot = .inSlot x ∧ x.work = .rx ∧ x.bits.length = 11 ∧ classify (wordOfBits x.bits) = .data 0xFF ∧
        (s.chan 1).cfg.rx = true ∧ (s.chan 1).rx.st = .opened ∧ (s.chan 1).rx.cur = some 0 ∧
        (s.chan 1).rx.len < (s.chan 1).cfg.maxLen ∧ (s.chan 1).rx.fill = n ∧ (s.chan 1).rx.first ≠ none ∧
        (s.chan 1).cfg.quota = 16 ∧ (s.chan 1).held = h ∧ s.pool.free = 5 :: [6] ∧ (5 : BlockNo) ≠ 0) ∧
    (let s := within x (receiver { openUnit .opened 32 with len := 256 } 8)
     (s.chan 1).rx.st = .opened ∧ (s.chan 1).cfg.maxLen ≤ (s.chan 1).rx.len) := by decide +kernel

theorem witness_LastWordEndsTheMessage :
    let x := rxSlotOf 1 (buildWord .last 0xFF)
    ∀ st ∈ [RxState.idle, .opened, .truncating, .overrun, .starved], let s := within x (receiver (openUnit st 31) 1)
      s.resetn = true ∧ s.slot = .inSlot x ∧ x.work = .rx ∧ x.bits.length = 11 ∧ classify (wordOfBits x.bits) = .last 0xFF ∧
        (s.chan 1).cfg.rx = true ∧ (s.chan 1).rx.st = st ∧ (s.chan 1).rx.len < (s.chan 1).cfg.maxLen ∧
        (s.chan 1).rx.fill < 32 ∧ (s.chan 1).rx.cur ≠ none := by decide +kernel

theorem witness_RxdataReadDeliversBytes :
    (State.reset.resetn = true ∧ State.reset.ring.entries = []) ∧
    (let s := atOffset 69 (ringed [entryOf 70 (some 0)])
     s.resetn = true ∧ s.ring.entries = entryOf 70 (some 0) :: [] ∧ s.ring.readOff ≠ (entryOf 70 (some 0)).length ∧
       (s.pool.chain (entryOf 70 (some 0)).first)[s.ring.readOff / 32]? = some 2) ∧
    (let s := atOffset 70 (ringed [entryOf 70 (some 0)]); s.ring.readOff = (entryOf 70 (some 0)).length) ∧
    (entryOf 70 (some 0)).length < (71 : Word).toNat ∧ (70 : Word).toNat ≤ (entryOf 70 (some 0)).length := by decide +kernel

theorem witness_ReleaseFreesTheHead :
    (State.reset.resetn = true ∧ State.reset.ring.entries = []) ∧
    (let s := ringed [entryOf 70 (some 0)]; s.resetn = true ∧ s.ring.entries = entryOf 70 (some 0) :: []) := by decide +kernel

theorem witness_RingcfgAndPoolcfgAreCheckedWhole :
    let low6 := fun w : Word => (w.extractLsb' 0 6).toNat
    let low7 := fun w : Word => (w.extractLsb' 0 7).toNat
    let hyst := fun w : Word => (w.extractLsb' 8 6).toNat
    State.reset.resetn = true ∧ low6 0xFF00 = 0 ∧ 32 < low6 0x0021 ∧ (low6 0x0020 ≠ 0 ∧ low6 0x0020 ≤ 32) ∧
    hyst 0x007F = 0 ∧ 32 < hyst 0x2100 ∧ 128 < low7 0x027F + hyst 0x027F ∧
    (hyst 0x2060 ≠ 0 ∧ hyst 0x2060 ≤ 32 ∧ low7 0x2060 + hyst 0x2060 ≤ 128) := by decide +kernel

theorem witness_CauseReadAcknowledgesTheFirst :
    (State.reset.resetn = true ∧ ∀ x ∈ allSources, ¬ (State.reset.isPending x = true ∧ State.reset.isEnabled x = true)) ∧
    (let s := { (raise (.peerChange 7) State.reset) with
       ev := { (raise (.peerChange 7) State.reset).ev with enable := (Vector.replicate 59 false).set 58 true } }
     let live := fun x : Source => s.isPending x = true ∧ s.isEnabled x = true
     s.resetn = true ∧ allSources.getD 58 .locked = .peerChange 7 ∧ live (.peerChange 7) ∧
       ∀ j : Fin 59, j < 58 → ¬ live (allSources.getD j.val .locked)) := by decide +kernel

theorem witness_StickyFlagsAreWrittenOneToClear :
    ∀ x ∈ [({ parity := true } : Sticky), { unknownCtrl := true }, { txOverflow := true }, { strayEcho := true }, { starved := true }],
      let s := { (State.reset.setSticky 0 x) with cfgReject := true }; s.resetn = true ∧ (s.chan s.chsel).sticky = x := by
  decide +kernel

theorem witness_StatusWordsShowTheState :
    ∀ b : Bool, let s := { ringed [entryOf 2048 (some 127)] with
      ev := { page := b }, map := { detail := 31 }, chans := (State.reset.setTx 7 { records := List.replicate 8 (message [1]) }).chans }
      s.resetn = true ∧ s.map.detail < 32 ∧ s.tim.limit < 16 ∧ s.ev.page = b ∧ (s.chan 7).tx.records.length ≤ 8 ∧ (s.chan s.chsel).held ≤ 128 ∧
        (s.chan s.chsel).tx.coll < 16 ∧ (s.chan s.chsel).tx.r < 16 ∧ s.pool.free.length ≤ 128 ∧
        s.ring.entries = entryOf 2048 (some 127) :: [] ∧ (entryOf 2048 (some 127)).length ≤ 2048 ∧ s.ring.reserved ≤ 32 ∧
        State.reset.ring.entries = [] := by decide +kernel

theorem witness_EnablesAndInterruptLine : State.reset.resetn = true := by decide

theorem witness_ChcfgWriteIsCheckedWhole :
    let s := State.reset
    let g := (s.chan s.chsel).cfg
    let lo8 := fun w : Word => (w.extractLsb' 0 8).toNat
    s.resetn = true ∧ g.hw ≤ lo8 0x000C ∧ lo8 0x000B < g.hw ∧ ¬ g.quota < g.hw ∧
    lo8 0x0100 = 0 ∧ 128 < lo8 0x0081 ∧ lo8 0x0011 > g.quota ∧ ¬ g.quota < lo8 0x0010 ∧ lo8 0x0004 ≤ g.lw ∧
    ((0x0800 : Word).extractLsb' 0 12).toNat = 2048 ∧ 2048 < ((0x0801 : Word).extractLsb' 0 12).toNat ∧
    ((0x00FF : Word).extractLsb' 8 4).toNat = 0 ∧ ((0x1001 : Word).extractLsb' 0 6).toNat ≤ 1 ∧
    512 < ((0x0201 : Word).extractLsb' 0 10).toNat := by decide +kernel

theorem witness_EnableWritesTakeEffect :
    (let s := { State.reset with map := { active := bankWith 0 .rx 0 } }
     s.resetn = true ∧ (0x0005 : Word).getLsbD 0 = true ∧ (0x0005 : Word).getLsbD 2 = true ∧
       s.map.active.gives .rx s.chsel = true ∧ s.map.active.gives .tx s.chsel = false) ∧
    (let s := shadowed .pending 0 .rx 0 locked
     s.map.commit = .pending ∧ s.map.shadow.gives .rx s.chsel = true ∧ s.map.shadow.gives .tx s.chsel = false) ∧
    (∀ st ∈ [RxState.idle, .opened, .starved], ∀ k ∈ [some (TxKind.data 1), none],
     let s := State.reset.setChan 0 { sender [message [1, 2]] 1 k with
        cfg := { rx := true, tx := true, fc := true }, rx := openUnit st 1 }
     s.resetn = true ∧ (0x0007 : Word).getLsbD 0 = true ∧ (0x0000 : Word).getLsbD 0 = false ∧
       ¬ (s.map.active.gives .rx s.chsel = true ∧ s.map.active.gives .tx s.chsel = false) ∧ s.map.commit ≠ .pending ∧
       (s.chan 0).cfg.rx = true ∧ (s.chan 0).cfg.tx = true ∧ (s.chan 0).cfg.fc = true ∧ (s.chan 0).rx.st = st) := by
  decide +kernel

theorem witness_FlushClearsTheChannel :
    ∀ st ∈ [RxState.opened, .starved], let s := State.reset.setChan 3 (receiver (openUnit st 9) 1)
      s.resetn = true ∧ (s.chan 3).rx.reserves = decide (st = .opened) := by decide +kernel

theorem witness_HostCauseMovesTheLocalPause : State.reset.resetn = true := by decide

theorem witness_RegisterWritesStoreOrAreIgnored :
    State.reset.resetn = true ∧ locked.tim.enable = true ∧ (1 : Word).toNat < 2 ∧ 1023 < (1024 : Word).toNat ∧
    (State.reset.tim.enable = false ∧ 2 ≤ (1023 : Word).toNat ∧ (1023 : Word).toNat ≤ 1023) ∧ 8 ≤ (8 : Word).toNat ∧
    (7 : Word).toNat < 8 ∧ (Instr.unknownCommand 0x18).wf = true := by decide

/-! A state under all the laws, other than reset: LOCKED in slot 2 with a commit pending, a 70-byte message in the ring, a
message of 9 bytes being received on channel 1, and a head being sent on channel 0; CANCEL waits. -/

/-- Channel 1 of that state. -/
def busyReceiver : Channel :=
  { cfg := { rx := true, fc := true, quota := 5, hw := 4, lw := 2 }
    rx := { openUnit .opened 9 with first := some 3, cur := some 3 }
    fl := { quota := true, asserted := true, pauseOwed := true }
    held := 4 }

/-- That state. -/
def busy : State :=
  { (((within (txSlotOf 0 none []) (sender [message [1, 2, 3], openRecord 3 true] 1 none)).setChan 1 busyReceiver)) with
    pending := [.cancel]
    map := { (shadowed .pending 4 .tx 1 locked).map with active := bankWith 2 .tx 0 }
    ring := { entries := [entryOf 70 (some 0)], reserved := 1, readOff := 70 }
    pool := { (ringed []).pool with mem := [(5, 1), (4095, 2)], free := (List.finRange 128).drop 4 } }

theorem witness_step_of_a_busy_state : ∃ t, step busy = .next t := ⟨_, rfl⟩

theorem witness_StepKeepsConfigLaw : busy.configLaw := by
  unfold State.configLaw ChanCfg.inRange
  decide +kernel

theorem witness_StepKeepsMapLaw : busy.mapLaw ∧ busy.slotLaw := by
  have beyond : ∀ (b : Bank) (k : Nat), b.len = 3 → b.slots ≤ k → (b.entry k).mode = .unused := by
    intro b k h hk
    simp only [Bank.slots, h] at hk
    have : ¬ k < 32 := by simp at hk; omega
    simp [Bank.entry, this]
  refine ⟨⟨by decide, fun k => beyond _ k (by decide), ?_, ?_, ?_,
    fun _ => ⟨by decide, by decide, fun k => beyond _ k (by decide), ?_⟩⟩, ?_, ?_⟩
  · unfold State.returnPaths
    decide +kernel
  · unfold Bank.unusedZero
    decide +kernel
  · unfold Bank.unusedZero
    decide +kernel
  · unfold State.returnPaths
    decide +kernel
  · intro _
    decide
  · intro x h
    cases h
    decide +kernel

theorem witness_StepKeepsPauseLaw : busy.configLaw ∧ busy.pauseLaw := by
  refine ⟨witness_StepKeepsConfigLaw, ?_⟩
  unfold State.pauseLaw
  decide +kernel

theorem witness_StepKeepsTxLaw : busy.txLaw := by
  unfold State.txLaw TxUnit.listLaw
  decide +kernel

theorem witness_StepKeepsRingAndMemoryLaws : busy.ringLaw ∧ busy.memLaw := by
  unfold State.ringLaw State.memLaw
  decide +kernel

theorem witness_BlocksAreConservedAndNoStepStops : busy.sound := by
  refine ⟨?_, by show 70 ≤ 70; decide⟩
  unfold State.poolLaw State.openFits
  decide +kernel

end Sys2Proof.Tests
end

section
/-! PROOFS. Writes to TIMCFG (spec 02, R16, R20): which words are rejected, what an accepted word stores, and the state the unit
enters when it is enabled. -/

namespace Sys2Proof.Machine

open Sys2Proof

/-! ## The fields of a TIMCFG word -/

theorem field_eq_extractLsb' (w : Word) (lo len : Nat) : field w lo len = (w.extractLsb' lo len).toNat := by
  simp [field, BitVec.extractLsb'_toNat, Nat.shiftRight_eq_div_pow]

theorem chanField_val (w : Word) (lo : Nat) : (chanField w lo).val = (w.extractLsb' lo 3).toNat := by
  have h : field w lo 3 < 8 := Nat.mod_lt _ (by decide)
  rw [← field_eq_extractLsb']
  exact Nat.mod_eq_of_lt h

/-- A role is told by its code. -/
theorem Role.code_inj {r q : Role} : r.code = q.code ↔ r = q := by
  cases r <;> cases q <;> decide

theorem roleOfCode_code (r : Role) : roleOfCode r.code = some r := by cases r <;> rfl

/-- Of the four values of the role field, code 3 alone names no role (R179). -/
theorem exists_role_of_code {n : Nat} (h : n < 4) (h3 : n ≠ 3) : ∃ r : Role, r.code = n := by
  interval_cases n
  · exact ⟨.follower, rfl⟩
  · exact ⟨.master, rfl⟩
  · exact ⟨.standby, rfl⟩
  · exact absurd rfl h3

/-- The state entered at enable, by the role's code (R20). -/
theorem entryState_eq (r : Role) : entryState r = if r.code = 1 then .listen else .search := by cases r <;> rfl

/-! ## Rejected and accepted words -/

/-- The words that a TIMCFG write rejects (R16, R179): flywheel limit 0, role code 3, or another role or rank while enabled. -/
def Timing.rejects (t : Timing) (w : Word) : Prop :=
  (w.extractLsb' 8 4).toNat = 0 ∨ (w.extractLsb' 0 2).toNat = 3 ∨
    (t.enable = true ∧ ((w.extractLsb' 0 2).toNat ≠ t.role.code ∨ (w.extractLsb' 4 3).toNat ≠ t.rank.val))

/-- What an accepted TIMCFG word of role r stores (R16). -/
def Timing.storing (t : Timing) (w : Word) (r : Role) : Timing :=
  { t with role := r, rank := chanField w 4, limit := (w.extractLsb' 8 4).toNat, enable := w.getLsbD 15 }

theorem roleOfCode_three : roleOfCode 3 = none := rfl

/-- With a role in its role field, a word is tested by its limit and, while enabled, by its role and rank. -/
theorem timcfgAccepted_eq {t : Timing} {w : Word} {r : Role} (hr : r.code = (w.extractLsb' 0 2).toNat) :
    timcfgAccepted t w = if (w.extractLsb' 8 4).toNat = 0 then none
      else if t.enable && (decide (r ≠ t.role) || decide (chanField w 4 ≠ t.rank)) then none
      else some (t.storing w r) := by
  unfold timcfgAccepted
  rw [field_eq_extractLsb', field_eq_extractLsb', ← hr, roleOfCode_code]
  rfl

theorem timcfgAccepted_of_rejects {t : Timing} {w : Word} (h : t.rejects w) : timcfgAccepted t w = none := by
  by_cases h3 : (w.extractLsb' 0 2).toNat = 3
  · simp [timcfgAccepted, field_eq_extractLsb', h3, roleOfCode_three]
  · obtain ⟨r, hr⟩ := exists_role_of_code (w.extractLsb' 0 2).isLt h3
    rw [timcfgAccepted_eq hr]
    rcases h with hl | h3' | ⟨he, hrr⟩
    · rw [if_pos hl]
    · exact absurd h3' h3
    · have hne : r ≠ t.role ∨ chanField w 4 ≠ t.rank :=
        hrr.imp (fun h e => h (by rw [← hr, e])) (fun h e => h (by rw [← chanField_val, e]))
      simp [he, hne]

theorem timcfgAccepted_of_not_rejects {t : Timing} {w : Word} (h : ¬ t.rejects w) :
    ∃ r : Role, r.code = (w.extractLsb' 0 2).toNat ∧ timcfgAccepted t w = some (t.storing w r) := by
  simp only [Timing.rejects, not_or, not_and_or, not_not] at h
  obtain ⟨hl, h3, hrr⟩ := h
  obtain ⟨r, hr⟩ := exists_role_of_code (w.extractLsb' 0 2).isLt h3
  refine ⟨r, hr, ?_⟩
  rw [timcfgAccepted_eq hr, if_neg hl, if_neg]
  rw [← hr, ← chanField_val, Role.code_inj, Fin.val_inj] at hrr
  rcases hrr with he | ⟨hrole, hrank⟩
  · simp [he]
  · simp [hrole, hrank]

/-! ## The write -/

/-- A rejected write sets CFG_REJECT and nothing else (R16, R178). -/
theorem writeTimcfg_of_rejects {w : Word} {s : State} (h : s.tim.rejects w) :
    writeTimcfg w s = { s with cfgReject := true } := by
  unfold writeTimcfg
  rw [timcfgAccepted_of_rejects h]
  rfl

/-- An accepted write that takes enable from 0 to 1 enters the state of its role (R20). -/
theorem writeTimcfg_enables {w : Word} {s : State} (h : ¬ s.tim.rejects w) (he : s.tim.enable = false)
    (hw : w.getLsbD 15 = true) :
    ∃ r : Role, r.code = (w.extractLsb' 0 2).toNat ∧ writeTimcfg w s = { s with tim := (s.tim.storing w r).entered } := by
  obtain ⟨r, hr, ha⟩ := timcfgAccepted_of_not_rejects h
  refine ⟨r, hr, ?_⟩
  simp [writeTimcfg, ha, Timing.storing, he, hw]

/-- An accepted write that leaves enable as it was stores its fields alone (R16). -/
theorem writeTimcfg_steady {w : Word} {s : State} (h : ¬ s.tim.rejects w) (he : s.tim.enable = w.getLsbD 15) :
    ∃ r : Role, r.code = (w.extractLsb' 0 2).toNat ∧ writeTimcfg w s = { s with tim := s.tim.storing w r } := by
  obtain ⟨r, hr, ha⟩ := timcfgAccepted_of_not_rejects h
  refine ⟨r, hr, ?_⟩
  simp [writeTimcfg, ha, Timing.storing, he]

/-- Out of reset the three rows that write TIMCFG are that write (log entry 9). -/
theorem exec_timcfg (w : Word) {s : State} (h : s.resetn = true) :
    exec (.timingEnable w) s = .next (writeTimcfg w s) ∧ exec (.timingDisable w) s = .next (writeTimcfg w s) ∧
      exec (.registerWrite 0x04 w) s = .next (writeTimcfg w s) := by
  refine ⟨?_, ?_, ?_⟩
  · exact congrArg _ (outOfReset_high _ h)
  · exact congrArg _ (outOfReset_high _ h)
  · exact congrArg _ (outOfReset_high _ h)

/-- Settles O16: a TIMCFG write is rejected, enables the unit, or stores its fields, each by its lemma above. -/
theorem timcfgEnablesOrRejects : Obligations.TimcfgEnablesOrRejects := by
  unfold Obligations.TimcfgEnablesOrRejects
  intro w s hs role rank limit
  obtain ⟨henable, hdisable, hwrite⟩ := exec_timcfg w hs
  refine ⟨?rejected, ?enables, ?steady⟩
  case rejected =>
    intro h
    rw [henable, hdisable, hwrite, writeTimcfg_of_rejects h]
    exact ⟨rfl, rfl, rfl⟩
  case enables =>
    intro hl h3 he hw
    have hacc : ¬ s.tim.rejects w := by
      rintro (h | h | ⟨hon, -⟩)
      · exact hl h
      · exact h3 h
      · exact Bool.false_ne_true (he.symm.trans hon)
    obtain ⟨r, hr, heq⟩ := writeTimcfg_enables hacc he hw
    refine ⟨_, henable, ?_⟩
    rw [heq]
    have hst : entryState r = if role = 1 then .listen else .search := by
      rw [entryState_eq, hr]
    exact ⟨hr, chanField_val w 4, rfl, hw, hst, rfl, rfl⟩
  case steady =>
    intro hl h3 he hkept
    have hacc : ¬ s.tim.rejects w := by
      rintro (h | h | ⟨hon, hrole | hrank⟩)
      · exact hl h
      · exact h3 h
      · exact hrole (hkept hon).1
      · exact hrank (hkept hon).2
    obtain ⟨r, hr, heq⟩ := writeTimcfg_steady hacc he
    refine ⟨_, hwrite, ?_⟩
    rw [heq]
    refine ⟨hr, chanField_val w 4, rfl, ?_⟩
    simp only [Timing.storing, ← he]

end Sys2Proof.Machine
end

section
/-! PROOFS. Happenings of which one or two change what is read of the state: the result is the same in every order that leaves the
others beside them (log entry 4). -/

namespace Sys2Proof.Machine

open Sys2Proof

/-- A happening that occurs once acts on what it reads as that stood before the list; the others change neither what it reads nor
what it changes. -/
theorem takeAll_reads {α β : Type} (g : State → α) (g' : State → β) (k : α → β) {f : State → State}
    (hf : ∀ s, g' (f s) = k (g s)) {l m : List (State → State)} (hp : l.Perm (f :: m))
    (h : ∀ f' ∈ m, ∀ s, g (f' s) = g s) (h' : ∀ f' ∈ m, ∀ s, g' (f' s) = g' s) (s : State) :
    g' (takeAll l s) = k (g s) := by
  obtain ⟨p, q, rfl⟩ := List.append_of_mem (hp.mem_iff.mpr (List.mem_cons_self ..))
  have hpq : (p ++ q).Perm m := (List.perm_middle.symm.trans hp).cons_inv
  have hbefore : g (takeAll p s) = g s :=
    takeAll_eq g (fun f' hf' => h f' (hpq.mem_iff.mp (List.mem_append_left _ hf'))) s
  have hafter : ∀ t, g' (takeAll q t) = g' t :=
    takeAll_eq g' fun f' hf' => h' f' (hpq.mem_iff.mp (List.mem_append_right _ hf'))
  rw [takeAll_append, takeAll_cons, hafter, hf, hbefore]

theorem takeTogether_reads {α β : Type} (g : State → α) (g' : State → β) (k : α → β) {f : State → State}
    (hf : ∀ s, g' (f s) = k (g s)) {l m : List (State → State)} (hp : l.Perm (f :: m))
    (h : ∀ f' ∈ m, ∀ s, g (f' s) = g s) (h' : ∀ f' ∈ m, ∀ s, g' (f' s) = g' s)
    (ha : ∀ s : State, g { s with arb := s.arb + 1 } = g s) (isOpen : Bool) (s : State) :
    g' (takeTogether isOpen l s) = k (g s) := by
  unfold takeTogether
  split
  · rw [takeAll_reads g g' k hf ((permute_perm _ _).trans hp) h h', ha]
  · exact takeAll_reads g g' k hf hp h h' s

/-- A change that every happening of a list commutes with stands after the list as it stood before it. -/
theorem takeAll_commutes {α : Type} (g : State → α) (j : α → α) {l : List (State → State)}
    (h : ∀ f ∈ l, ∀ s t, g t = j (g s) → g (f t) = j (g (f s))) {s t : State} (hst : g t = j (g s)) :
    g (takeAll l t) = j (g (takeAll l s)) := by
  induction l generalizing s t with
  | nil => exact hst
  | cons f l ih =>
    exact ih (fun f' hf' => h f' (List.mem_cons_of_mem _ hf')) (h f (List.mem_cons_self ..) s t hst)

/-- Two happenings that occur once each and whose changes commute both have their effect, in every order; the others keep the
function. -/
theorem takeAll_twice {α : Type} (g : State → α) (j k : α → α) (hjk : ∀ a, k (j a) = j (k a)) {f f' : State → State}
    (hf : ∀ s, g (f s) = j (g s)) (hf' : ∀ s, g (f' s) = k (g s)) {l m : List (State → State)}
    (hp : l.Perm (f :: f' :: m)) (h : ∀ e ∈ m, ∀ s, g (e s) = g s) (s : State) : g (takeAll l s) = j (k (g s)) := by
  obtain ⟨p, q, rfl⟩ := List.append_of_mem (hp.mem_iff.mpr (List.mem_cons_self ..))
  have hpq : (p ++ q).Perm (f' :: m) := (List.perm_middle.symm.trans hp).cons_inv
  have hcomm : ∀ e ∈ q, ∀ u t, g t = j (g u) → g (e t) = j (g (e u)) := by
    intro e he u t hut
    rcases List.mem_cons.mp (hpq.mem_iff.mp (List.mem_append_right _ he)) with rfl | hm
    · rw [hf', hf', hut, hjk]
    · rw [h e hm, h e hm, hut]
  rw [takeAll_append, takeAll_cons, takeAll_commutes g j hcomm (hf (takeAll p s)), ← takeAll_append,
    takeAll_once g k hf' hpq h]

theorem takeTogether_twice {α : Type} (g : State → α) (j k : α → α) (hjk : ∀ a, k (j a) = j (k a)) {f f' : State → State}
    (hf : ∀ s, g (f s) = j (g s)) (hf' : ∀ s, g (f' s) = k (g s)) {l m : List (State → State)}
    (hp : l.Perm (f :: f' :: m)) (h : ∀ e ∈ m, ∀ s, g (e s) = g s)
    (ha : ∀ s : State, g { s with arb := s.arb + 1 } = g s) (isOpen : Bool) (s : State) :
    g (takeTogether isOpen l s) = j (k (g s)) := by
  unfold takeTogether
  split
  · rw [takeAll_twice g j k hjk hf hf' ((permute_perm _ _).trans hp) h, ha]
  · exact takeAll_twice g j k hjk hf hf' hp h s

end Sys2Proof.Machine
end

section
/-! PROOFS. Messages that end in one step (spec 06, R115, R118; 07, R129): what they leave of the receive units and of the ring,
whatever the order they end in. -/

namespace Sys2Proof.Machine

open Sys2Proof

/-! ## The receive unit of an ended message -/

theorem closed_of_idle {u : RxUnit} (h : u.st = .idle) : u.closed = u := by
  simp [RxUnit.closed, h, RxState.holdsReservation, RxState.inProgress]

@[simp] theorem closed_closed (u : RxUnit) : u.closed.closed = u.closed := closed_of_idle (closed_st u)

theorem closed_eq_endedUnit {u : RxUnit} (h : u.st ≠ .idle) : u.closed = endedUnit u := by
  unfold RxUnit.closed endedUnit RxUnit.reserves
  cases hst : u.st with
  | idle => exact absurd hst h
  | opened => simp [RxState.holdsReservation, RxUnit.idled]
  | truncating => simp [RxState.holdsReservation, RxUnit.idled]
  | overrun => simp [RxState.holdsReservation, RxUnit.idled]
  | starved => simp [RxState.holdsReservation, RxState.inProgress, RxUnit.idled]

@[simp] theorem reserves_closed (u : RxUnit) : u.closed.reserves = false := by
  simp [RxUnit.reserves, closed_st]

/-- A message that ends leaves a descriptor exactly where it held a reservation (R115, R116). -/
theorem endingOf_eq {cause : MsgStatus} (h : cause ≠ .overrun) (c : Chan) (s : State) :
    endingOf cause c s = if (s.chan c).rx.reserves then [endedAs c cause s] else [] := by
  cases hst : (s.chan c).rx.st <;> simp [endingOf, closingStatus, RxUnit.reserves, descriptorOf, endedAs, hst, h]

/-! ## From one state to another, messages have ended -/

/-- How many channels hold a reservation. -/
def State.reservations (s : State) : Nat := channels.countP fun c => (s.chan c).rx.reserves

/-- From s to t messages have ended with closing causes of the list, and nothing else has happened to the ring: every receive unit is
as it was or closed, and one descriptor has joined the ring for every reservation that is gone. -/
structure MessagesEnd (causes : List MsgStatus) (s t : State) : Prop where
  stamp : t.tim.frameCnt = s.tim.frameCnt
  unit : ∀ c, (t.chan c).rx = (s.chan c).rx ∨ (t.chan c).rx = (s.chan c).rx.closed
  ring : ∃ ds, t.ring = s.ring.joined ds ∧ ds.length + t.reservations = s.reservations ∧
    ∀ c, (s.chan c).rx.reserves = true → (t.chan c).rx.reserves = false → ∃ k ∈ causes, endedAs c k s ∈ ds

/-- Where the receive units, the ring and the timing unit stand, no message has ended. -/
theorem MessagesEnd.of_same {s t : State} (causes : List MsgStatus) (htim : t.tim = s.tim) (hring : t.ring = s.ring)
    (hrx : ∀ c, (t.chan c).rx = (s.chan c).rx) : MessagesEnd causes s t where
  stamp := by rw [htim]
  unit c := .inl (hrx c)
  ring := ⟨[], by rw [hring, joined_nil], by simp [State.reservations, hrx], fun c hc hn => by simp [hrx, hc] at hn⟩

theorem MessagesEnd.mono {causes more : List MsgStatus} {s t : State} (h : MessagesEnd causes s t) (hsub : causes ⊆ more) :
    MessagesEnd more s t where
  stamp := h.stamp
  unit := h.unit
  ring := by
    obtain ⟨ds, hring, hlen, hmem⟩ := h.ring
    exact ⟨ds, hring, hlen, fun c hc hn => (hmem c hc hn).imp fun _ hk => ⟨hsub hk.1, hk.2⟩⟩

theorem MessagesEnd.trans {causes : List MsgStatus} {s t u : State} (h : MessagesEnd causes s t)
    (h' : MessagesEnd causes t u) : MessagesEnd causes s u where
  stamp := h'.stamp.trans h.stamp
  unit c := by
    rcases h.unit c with hst | hst <;> rcases h'.unit c with htu | htu <;> simp [htu, hst]
  ring := by
    obtain ⟨ds, hring, hlen, hmem⟩ := h.ring
    obtain ⟨es, hring', hlen', hmem'⟩ := h'.ring
    refine ⟨ds ++ es, by rw [hring', hring, joined_joined], by rw [List.length_append]; omega, fun c hc hn => ?_⟩
    by_cases ht : (t.chan c).rx.reserves = true
    · have hrx : (t.chan c).rx = (s.chan c).rx := (h.unit c).resolve_right fun e => by simp [e] at ht
      obtain ⟨k, hk, hin⟩ := hmem' c ht hn
      have he : endedAs c k t = endedAs c k s := by simp only [endedAs, hrx, h.stamp]
      exact ⟨k, hk, List.mem_append_right _ (he ▸ hin)⟩
    · obtain ⟨k, hk, hin⟩ := hmem c hc (Bool.eq_false_iff.mpr ht)
      exact ⟨k, hk, List.mem_append_left _ hin⟩

/-- The end of one channel's message takes its reservation, if it holds one, from the count. -/
theorem reservations_of_closed {c : Chan} {s t : State}
    (hrx : ∀ d, (t.chan d).rx = if d = c then (s.chan c).rx.closed else (s.chan d).rx) :
    (if (s.chan c).rx.reserves then 1 else 0) + t.reservations = s.reservations := by
  have hothers : (channels.erase c).countP (fun d => (t.chan d).rx.reserves) =
      (channels.erase c).countP fun d => (s.chan d).rx.reserves := by
    refine List.countP_congr fun d hd => ?_
    have hne : d ≠ c := fun e => not_mem_erase c (e ▸ hd)
    rw [hrx, if_neg hne]
  have hown : (t.chan c).rx = (s.chan c).rx.closed := by rw [hrx, if_pos rfl]
  simp only [State.reservations, (channels_perm c).countP_eq, List.countP_cons, hothers, hown, reserves_closed]
  simp [Nat.add_comm]

/-- The end of the message of channel c with a closing cause. -/
theorem MessagesEnd.of_ending {cause : MsgStatus} (h : cause ≠ .overrun) {c : Chan} {s t : State} (htim : t.tim = s.tim)
    (hring : t.ring = s.ring.joined (endingOf cause c s))
    (hrx : ∀ d, (t.chan d).rx = if d = c then (s.chan c).rx.closed else (s.chan d).rx) : MessagesEnd [cause] s t where
  stamp := by rw [htim]
  unit d := by
    by_cases hd : d = c
    · subst hd; exact .inr (by simp [hrx])
    · exact .inl (by simp [hrx, hd])
  ring := by
    refine ⟨_, hring, ?_, fun d hd hn => ⟨cause, List.mem_singleton_self _, ?_⟩⟩
    · rw [← reservations_of_closed hrx, endingOf_eq h]
      split <;> rfl
    · by_cases hdc : d = c
      · subst hdc; simp [endingOf_eq h, hd]
      · simp [hrx, hdc, hd] at hn

/-- Happenings that each do nothing to the ring but end messages do nothing else together, in every order. -/
theorem takeTogether_messagesEnd {causes : List MsgStatus} {l : List (State → State)}
    (h : ∀ f ∈ l, ∀ t, MessagesEnd causes t (f t)) (isOpen : Bool) (s : State) :
    MessagesEnd causes s (takeTogether isOpen l s) :=
  takeTogether_keeps (P := MessagesEnd causes s) (fun f hf t ht => ht.trans (h f hf t))
    (fun _ ht => ⟨ht.stamp, ht.unit, ht.ring⟩) isOpen (.of_same causes rfl rfl fun _ => rfl)

/-! ## The happenings that end messages -/

theorem abortChan_messagesEnd (c : Chan) (s : State) : MessagesEnd [.sync] s (abortChan c s) := by
  have hring : (abortChan c s).ring = s.ring.joined (endingOf .sync c s) := by rw [abortChan_eq]; rfl
  have htim : (abortChan c s).tim = s.tim := by rw [abortChan_eq]; rfl
  refine .of_ending (by decide) htim hring fun d => ?_
  rw [abortChan_chan, apply_ite Channel.rx]
  rfl

theorem noticed_rx (b : Bank) (c : Chan) (x : Channel) :
    (x.noticed b c).rx = if b.gives .rx c then x.rx else x.rx.closed := by
  unfold Channel.noticed
  cases b.gives .tx c <;> cases b.gives .rx c <;> rfl

theorem switchNotice_messagesEnd (c : Chan) (s : State) : MessagesEnd [.unmapped] s (switchNotice c s) := by
  have htim : (switchNotice c s).tim = s.tim := by rw [switchNotice_eq]; rfl
  have hring : (switchNotice c s).ring =
      if s.map.active.gives .rx c then s.ring else s.ring.joined (endingOf .unmapped c s) := by rw [switchNotice_eq]; rfl
  have hrx : ∀ d, ((switchNotice c s).chan d).rx =
      if d = c then (if s.map.active.gives .rx c then (s.chan c).rx else (s.chan c).rx.closed) else (s.chan d).rx := by
    intro d
    rw [switchNotice_chan, apply_ite Channel.rx, noticed_rx]
  cases hg : s.map.active.gives .rx c with
  | true =>
    simp only [hg, if_true] at hring hrx
    refine .of_same _ htim hring fun d => ?_
    by_cases hd : d = c
    · subst hd; simp [hrx]
    · simp [hrx, hd]
  | false => exact .of_ending (by decide) htim (by simpa [hg] using hring) (by simpa [hg] using hrx)

theorem switchBanks_messagesEnd (s : State) : MessagesEnd [.unmapped] s (switchBanks s) := by
  have hcopied : MessagesEnd [.unmapped] s s.copied := .of_same _ rfl rfl fun _ => rfl
  rw [switchBanks_eq]
  refine hcopied.trans (takeTogether_messagesEnd (fun f hf t => ?_) _ _)
  obtain ⟨c, -, rfl⟩ := List.mem_map.mp hf
  exact switchNotice_messagesEnd c t

end Sys2Proof.Machine
end

section
/-! PROOFS. The flags that a switch raises (spec 03, R49; 04, R74; 09, R160), in every order of its notices. -/

namespace Sys2Proof.Machine

open Sys2Proof

/-! ## Sources and their flags -/

/-- Every source stands at its place in presentation order (R162). -/
theorem allSources_place (x : Source) : allSources[x.place.val]? = some x := by
  cases x with
  | txShutdown c => revert c; decide
  | txDropped c => revert c; decide
  | rxStarved c => revert c; decide
  | txSpace c => revert c; decide
  | holdExpired c => revert c; decide
  | peerChange c => revert c; decide
  | _ => rfl

/-- No two sources share a flag (R162). -/
theorem place_inj {x y : Source} : x.place = y.place ↔ x = y := by
  refine ⟨fun h => Option.some.inj ?_, congrArg _⟩
  rw [← allSources_place x, ← allSources_place y, h]

/-- A flag after one is set. -/
theorem latched_set (v : Vector Bool 59) (x y : Source) :
    (v.set y.place true).get x.place = (v.get x.place || decide (x = y)) := by
  show (v.set y.place.val true y.place.isLt)[x.place.val] = (v[x.place.val] || decide (x = y))
  rw [Vector.getElem_set]
  simp only [Fin.val_inj, place_inj]
  by_cases h : y = x <;> simp [h, eq_comm (a := x)]

/-- The state's flag of a source. -/
def State.flag (s : State) (x : Source) : Bool := s.ev.latched.get x.place

theorem flag_raise (x y : Source) (s : State) : (raise y s).flag x = (s.flag x || decide (x = y)) := latched_set ..

@[simp] theorem abortChan_map (c : Chan) (s : State) : (abortChan c s).map = s.map := by rw [abortChan_eq]; rfl

@[simp] theorem abortChan_ev (c : Chan) (s : State) : (abortChan c s).ev = s.ev := by rw [abortChan_eq]; rfl

@[simp] theorem abortChan_flag (c : Chan) (s : State) (x : Source) : (abortChan c s).flag x = s.flag x := by
  rw [abortChan_eq]; rfl

/-! ## The switch -/

/-- The switch notice raises PEER_CHANGE of a PRESENT channel without an RX slot, and nothing else (R74). -/
theorem switchNotice_flag (c : Chan) (s : State) (x : Source) :
    (switchNotice c s).flag x =
      (s.flag x || (decide (x = .peerChange c) && (!s.map.active.gives .rx c && (s.chan c).peer.present))) := by
  have hev : (switchNotice c s).ev = if !s.map.active.gives .rx c && (s.chan c).peer.present then
      { s.ev with latched := s.ev.latched.set (Source.peerChange c).place true } else s.ev := by
    rw [switchNotice_eq]; rfl
  unfold State.flag
  rw [hev]
  split
  · next h => rw [h, Bool.and_true]; exact latched_set ..
  · next h => rw [Bool.not_eq_true] at h; simp [h]

theorem switchNotice_flag_other {c : Chan} {x : Source} (h : x ≠ .peerChange c) (s : State) :
    (switchNotice c s).flag x = s.flag x := by
  simp [switchNotice_flag, h]

/-- The sources that a switch to the SHADOW of s raises (R49, R74). -/
def State.switchRaises (s : State) : Source → Bool
  | .commitDone => true
  | .peerChange c => !s.map.shadow.gives .rx c && (s.chan c).peer.present
  | _ => false

/-- Only COMMIT_DONE and the PEER_CHANGE sources can be raised by a switch. -/
theorem switchRaises_of_not_mem {x : Source} (h : x ∉ switchSources) (s : State) : s.switchRaises x = false := by
  cases x with
  | commitDone => exact absurd (List.mem_cons_self ..) h
  | peerChange c => exact absurd (List.mem_cons_of_mem _ (List.mem_map_of_mem (mem_channels c))) h
  | _ => rfl

/-- What the notice of channel d reads and changes, as the flag of PEER_CHANGE(d) reads it. -/
def State.peerView (s : State) (d : Chan) : Bool × Bool × Bool :=
  (s.flag (.peerChange d), s.map.active.gives .rx d, (s.chan d).peer.present)

theorem switchNotice_peerView_other {c d : Chan} (h : c ≠ d) (s : State) : (switchNotice c s).peerView d = s.peerView d := by
  have hmap : (switchNotice c s).map = s.map := by rw [switchNotice_eq]; rfl
  have hflag : (switchNotice c s).flag (.peerChange d) = s.flag (.peerChange d) :=
    switchNotice_flag_other (fun e => h (Source.peerChange.inj e).symm) s
  have hchan : (switchNotice c s).chan d = s.chan d := by rw [switchNotice_chan, if_neg h.symm]
  simp only [State.peerView, hmap, hflag, hchan]

theorem switchBanks_flag (s : State) (x : Source) : (switchBanks s).flag x = (s.flag x || s.switchRaises x) := by
  have hcopied : s.copied.flag x = (s.flag x || decide (x = .commitDone)) := flag_raise ..
  rw [switchBanks_eq]
  by_cases hx : ∃ d, x = .peerChange d
  · obtain ⟨d, rfl⟩ := hx
    rw [takeTogether_reads (fun t => t.peerView d) (fun t => t.flag (.peerChange d)) (fun v => v.1 || (!v.2.1 && v.2.2))
      (f := switchNotice d) (m := (channels.erase d).map switchNotice) (by simp [switchNotice_flag, State.peerView])
      ((channels_perm d).map switchNotice) ?_ ?_ (fun _ => rfl)]
    · simp only [State.peerView, hcopied]
      simp only [reduceCtorEq, decide_false, Bool.or_false]
      rfl
    all_goals
      intro f hf t
      obtain ⟨c, hc, rfl⟩ := List.mem_map.mp hf
      have hne : c ≠ d := fun e => not_mem_erase d (e ▸ hc)
    · exact switchNotice_peerView_other hne t
    · exact congrArg Prod.fst (switchNotice_peerView_other hne t)
  · rw [takeTogether_eq (fun t => t.flag x) ?_ (fun _ => rfl), hcopied]
    · cases x with
      | peerChange d => exact absurd ⟨d, rfl⟩ hx
      | _ => rfl
    · intro f hf t
      obtain ⟨c, -, rfl⟩ := List.mem_map.mp hf
      exact switchNotice_flag_other (fun e => hx ⟨c, e⟩) t

end Sys2Proof.Machine
end

section
/-! PROOFS. A fall of the timing state (spec 02, R37; 03, R50, R54): the traffic abort at every channel and the switch of a pending
commit, whichever comes first. -/

namespace Sys2Proof.Machine

open Sys2Proof

/-! ## The two effects at a channel commute -/

/-- A transmit unit without a head in SENDING has nothing to restart (R92). -/
theorem unmapped_of_not_sending {u : TxUnit} (h : u.sending = false) : u.unmapped = u := by simp [TxUnit.unmapped, h]

@[simp] theorem trafficAbort_sending (u : TxUnit) : u.trafficAbort.sending = false := by
  unfold TxUnit.trafficAbort
  split
  · rfl
  · next h => exact Bool.eq_false_iff.mpr h

/-- A restart that the switch notice makes first is the one the traffic abort makes (R91, R92). -/
@[simp] theorem trafficAbort_unmapped (u : TxUnit) : u.unmapped.trafficAbort = u.trafficAbort := by
  cases hs : u.sending with
  | false => rw [unmapped_of_not_sending hs]
  | true =>
    by_cases ho : 0 < u.offset
    · simp [TxUnit.unmapped, TxUnit.trafficAbort, TxUnit.uncountedRestart, hs, ho]
    · simp [TxUnit.unmapped, hs, ho]

/-- Peer presence after the switch notice (R74). -/
def Peer.noticed (b : Bank) (c : Chan) (p : Peer) : Peer :=
  if b.gives .rx c then p else { p with present := false, silence := 0 }

theorem noticed_peer (b : Bank) (c : Chan) (x : Channel) : (x.noticed b c).peer = x.peer.noticed b c := by
  unfold Channel.noticed Peer.noticed
  cases b.gives .tx c <;> cases b.gives .rx c <;> rfl

/-- A traffic abort leaves the switch notice nothing but peer presence, before it and after it. -/
theorem aborted_noticed (b : Bank) (c : Chan) (x : Channel) :
    (x.noticed b c).aborted = { x.aborted with peer := x.peer.noticed b c } := by
  unfold Channel.noticed Channel.aborted Peer.noticed
  cases b.gives .tx c <;> cases b.gives .rx c <;> simp

theorem noticed_aborted (b : Bank) (c : Chan) (x : Channel) : x.aborted.noticed b c = (x.noticed b c).aborted := by
  rw [aborted_noticed]
  unfold Channel.noticed Channel.aborted Peer.noticed
  cases b.gives .tx c <;> cases b.gives .rx c <;> simp [unmapped_of_not_sending]

/-! ## What of the state a fall changes, in every order -/

theorem commit_idle_of_ne {s : State} (h : s.map.commit ≠ .pending) : s.map.commit = .idle := by
  cases hc : s.map.commit with
  | idle => rfl
  | pending => exact absurd hc h

/-- What a traffic abort keeps, a fall without a pending commit keeps. -/
theorem fall_keeps {α : Type} (g : State → α) (ha : ∀ c t, g (abortChan c t) = g t)
    (harb : ∀ t : State, g { t with arb := t.arb + 1 } = g t) (aborts : Bool) {s : State} (h : s.map.commit ≠ .pending) :
    g (fall aborts s) = g s := by
  cases aborts with
  | false => rw [fall_quiet, if_neg h]
  | true =>
    rw [fall_abort s (commit_idle_of_ne h)]
    refine takeTogether_eq g (fun f hf t => ?_) harb _ s
    obtain ⟨c, -, rfl⟩ := List.mem_map.mp hf
    exact ha c t

/-- With a pending commit a fall is the traffic aborts, if there are any, and one switch. -/
theorem fall_pending (aborts : Bool) {s : State} (h : s.map.commit = .pending) :
    ∃ isOpen, fall aborts s =
      takeTogether isOpen ((if aborts then channels.map abortChan else []) ++ [switchBanks]) s := by
  have hp : s.switchPending = true := by simp [State.switchPending, h]
  exact ⟨_, by rw [fall, if_pos hp]⟩

theorem mem_aborts {aborts : Bool} {f : State → State} (h : f ∈ if aborts then channels.map abortChan else []) :
    ∃ c, f = abortChan c := by
  cases aborts with
  | false => simp at h
  | true =>
    obtain ⟨c, -, rfl⟩ := List.mem_map.mp h
    exact ⟨c, rfl⟩

/-- With a pending commit, what its switch makes of what the traffic aborts keep, the fall makes of it. -/
theorem fall_switches {α β : Type} (g : State → α) (g' : State → β) (k : α → β) (hk : ∀ t, g' (switchBanks t) = k (g t))
    (ha : ∀ c t, g (abortChan c t) = g t) (ha' : ∀ c t, g' (abortChan c t) = g' t)
    (harb : ∀ t : State, g { t with arb := t.arb + 1 } = g t) (aborts : Bool) {s : State} (h : s.map.commit = .pending) :
    g' (fall aborts s) = k (g s) := by
  obtain ⟨isOpen, heq⟩ := fall_pending aborts h
  rw [heq]
  refine takeTogether_reads g g' k hk (List.perm_append_singleton ..) (fun f hf t => ?_) (fun f hf t => ?_) harb isOpen s
  · obtain ⟨c, rfl⟩ := mem_aborts hf
    exact ha c t
  · obtain ⟨c, rfl⟩ := mem_aborts hf
    exact ha' c t

/-! ## A channel over a fall -/

/-- With a pending commit, a fall that issues traffic aborts gives a channel the switch notice and the traffic abort. -/
theorem fall_true_chan_pending {s : State} (h : s.map.commit = .pending) (c : Chan) :
    (fall true s).chan c = ((s.chan c).noticed s.map.shadow c).aborted := by
  obtain ⟨isOpen, heq⟩ := fall_pending true h
  have hp : (channels.map abortChan ++ [switchBanks]).Perm
      (abortChan c :: switchBanks :: (channels.erase c).map abortChan) :=
    (List.perm_append_singleton ..).trans ((((channels_perm c).map abortChan).cons _).trans (.swap ..))
  have htwice := takeTogether_twice (fun t => (t.chan c, t.map.shadow)) (fun v => (v.1.aborted, v.2))
    (fun v => (v.1.noticed v.2 c, v.2)) (fun v => by simp [noticed_aborted]) ?_ ?_ hp ?_ (fun _ => rfl) isOpen s
  · rw [heq]
    exact congrArg Prod.fst htwice
  · intro t
    simp [abortChan_chan]
  · intro t
    simp [switchBanks_chan, switchBanks_map, MapUnit.switched]
  · intro f hf t
    obtain ⟨d, hd, rfl⟩ := List.mem_map.mp hf
    have hne : c ≠ d := fun e => not_mem_erase c (e ▸ hd)
    simp [abortChan_chan, hne]

/-- Peer presence over a fall follows the switch alone (R74). -/
theorem fall_peer (aborts : Bool) (s : State) (c : Chan) :
    ((fall aborts s).chan c).peer =
      if s.map.commit = .pending then (s.chan c).peer.noticed s.map.shadow c else (s.chan c).peer := by
  have hkeep : ∀ (d : Chan) (t : State), ((abortChan d t).chan c).peer = (t.chan c).peer := by
    intro d t
    rw [abortChan_chan]
    split
    · next h => subst h; rfl
    · rfl
  split
  · next h =>
    exact fall_switches (fun t => ((t.chan c).peer, t.map.shadow)) (fun t => (t.chan c).peer) (fun v => v.1.noticed v.2 c)
      (fun t => by rw [switchBanks_chan, noticed_peer]) (fun d t => by simp [hkeep]) hkeep (fun _ => rfl) aborts h
  · next h => exact fall_keeps (fun t => (t.chan c).peer) hkeep (fun _ => rfl) aborts h

/-- A fall that issues traffic aborts: every channel is aborted, and its peer presence follows the switch (R37, R50). -/
theorem fall_true_chan (s : State) (c : Chan) :
    ∃ p, (fall true s).chan c = { (s.chan c).aborted with peer := p } := by
  by_cases h : s.map.commit = .pending
  · exact ⟨_, (fall_true_chan_pending h c).trans (aborted_noticed ..)⟩
  · exact ⟨(s.chan c).peer, by rw [fall_abort s (commit_idle_of_ne h), trafficAbort_chan]; rfl⟩

/-! ## The rest of the state over a fall -/

/-- A pending commit switches (R50), and nothing else changes the map unit. -/
theorem fall_map (aborts : Bool) (s : State) :
    (fall aborts s).map = if s.map.commit = .pending then afterSwitch s.map else s.map := by
  split
  · next h =>
    exact fall_switches State.map State.map afterSwitch switchBanks_map abortChan_map abortChan_map (fun _ => rfl) aborts h
  · next h => exact fall_keeps State.map abortChan_map (fun _ => rfl) aborts h

/-- The timing unit is not touched by what its fall brings to the others. -/
@[simp] theorem fall_tim (aborts : Bool) (s : State) : (fall aborts s).tim = s.tim := by
  have h := congrArg State.tim (fall_frame aborts s); exact h

@[simp] theorem fall_slot (aborts : Bool) (s : State) : (fall aborts s).slot = s.slot := by
  have h := congrArg State.slot (fall_frame aborts s); exact h

@[simp] theorem fall_dataHeld (aborts : Bool) (s : State) : (fall aborts s).dataHeld = s.dataHeld := by
  have h := congrArg State.dataHeld (fall_frame aborts s); exact h

/-- The flags that a fall raises are those of its switch (R49, R74). -/
theorem fall_flag (aborts : Bool) (s : State) (x : Source) :
    (fall aborts s).flag x = (s.flag x || (decide (s.map.commit = .pending) && s.switchRaises x)) := by
  have hraises : ∀ c t, (abortChan c t).switchRaises x = t.switchRaises x := by
    intro c t
    cases x with
    | peerChange d =>
      simp only [State.switchRaises, abortChan_map, abortChan_chan]
      split
      · next h => subst h; rfl
      · rfl
    | _ => rfl
  by_cases h : s.map.commit = .pending
  · rw [fall_switches (fun t => (t.flag x, t.switchRaises x)) (fun t => t.flag x) (fun v => v.1 || v.2)
      (fun t => switchBanks_flag t x) (fun c t => by simp [hraises]) (fun c t => abortChan_flag c t x) ?_ aborts h]
    · simp [h]
    · intro t; cases x <;> rfl
  · rw [fall_keeps (fun t => t.flag x) (fun c t => abortChan_flag c t x) (fun _ => rfl) aborts h]
    simp [h]

/-- The notices of a switch change no enable, detail, INTEN or view page. -/
theorem switchBanks_evFrame (e : Vector Bool 59) (s : State) :
    { (switchBanks s).ev with latched := e } = { s.ev with latched := e } := by
  rw [switchBanks_eq]
  refine takeTogether_eq (fun t : State => ({ t.ev with latched := e } : EventUnit)) (fun f hf t => ?_) (fun _ => rfl) _
    s.copied
  obtain ⟨c, -, rfl⟩ := List.mem_map.mp hf
  rw [switchNotice_eq]
  simp only [setChan_ev, State.withEv]
  split <;> rfl

/-- Of the event unit a fall changes flags alone. -/
theorem fall_evFrame (aborts : Bool) (s : State) : (fall aborts s).ev = { s.ev with latched := (fall aborts s).ev.latched } := by
  have hframe : ({ (fall aborts s).ev with latched := s.ev.latched } : EventUnit) = s.ev := by
    by_cases h : s.map.commit = .pending
    · have habort : ∀ c (t : State), ({ (abortChan c t).ev with latched := s.ev.latched } : EventUnit) =
          { t.ev with latched := s.ev.latched } := fun c t => by rw [abortChan_ev]
      exact fall_switches (fun t : State => ({ t.ev with latched := s.ev.latched } : EventUnit))
        (fun t => { t.ev with latched := s.ev.latched }) id (switchBanks_evFrame _) habort habort (fun _ => rfl) aborts h
    · rw [fall_keeps State.ev abortChan_ev (fun _ => rfl) aborts h]
  have h := congrArg (fun v : EventUnit => ({ v with latched := (fall aborts s).ev.latched } : EventUnit)) hframe
  exact h

/-- The closing causes of the messages that a fall ends: SYNC, and UNMAPPED where a commit switches in the same step (R54). -/
def State.fallCauses (s : State) : List MsgStatus := if s.map.commit = .pending then [.sync, .unmapped] else [.sync]

theorem fall_messagesEnd (aborts : Bool) (s : State) : MessagesEnd s.fallCauses s (fall aborts s) := by
  refine takeTogether_messagesEnd (fun f hf t => ?_) _ s
  rcases List.mem_append.mp hf with hf | hf
  · obtain ⟨c, rfl⟩ := mem_aborts hf
    exact (abortChan_messagesEnd c t).mono (by unfold State.fallCauses; split <;> simp)
  · by_cases h : s.map.commit = .pending
    · simp only [State.switchPending, h, decide_true, if_true, List.mem_singleton] at hf
      subst hf
      exact (switchBanks_messagesEnd t).mono (by simp [State.fallCauses, h])
    · simp [State.switchPending, h] at hf

/-! ## What a fall leaves, in the words of the statements -/

/-- A traffic abort at a transmit unit, as one update (R91). -/
theorem trafficAbort_eq (u : TxUnit) :
    u.trafficAbort = { u with flight := none, testDue := false, sending := false
                              offset := if u.sending then 0 else u.offset
                              abortOwed := u.sending || (u.abortOwed || u.orphanInFlight) } := by
  unfold TxUnit.trafficAbort
  cases h : u.sending with
  | true => rfl
  | false => rw [if_neg Bool.false_ne_true, if_neg Bool.false_ne_true, Bool.false_or, ← h]

/-- The traffic abort of a channel leaves what R91, R121 and R150 say. -/
theorem abortedChannel_aborted (x : Channel) (p : Peer) : abortedChannel x { x.aborted with peer := p } := by
  have hended : x.rx.st ≠ .idle → x.rx.closed = endedUnit x.rx := closed_eq_endedUnit
  have hkept : x.rx.st = .idle → { x.rx.closed with seen := x.rx.seen } = x.rx := fun h => by rw [closed_of_idle h]
  simp only [Channel.aborted, trafficAbort_eq]
  refine ⟨hended, hkept, rfl, rfl, rfl, rfl, rfl, rfl, fun h => ?_, fun h => ?_, rfl, rfl, rfl, rfl, rfl, rfl, rfl, rfl,
    rfl, rfl, rfl, rfl, rfl⟩
  · simp [h]
  · rcases hf : x.tx.flight with _ | ⟨kind, orphan⟩
    · simp [h, TxUnit.orphanInFlight, hf]
    · cases kind <;> simp [h, TxUnit.orphanInFlight, TxKind.isMessage, hf]

/-- Where no reservation is left, one descriptor has joined the ring for each there was (R129, R137). -/
theorem ringEnds_of_messagesEnd {switches : Bool} {s t : State}
    (h : MessagesEnd (if switches then [.sync, .unmapped] else [.sync]) s t) (hnone : ∀ c, (t.chan c).rx.reserves = false) :
    ringEnds switches s t := by
  obtain ⟨ds, hring, hlen, hmem⟩ := h.ring
  have hcount : t.reservations = 0 := by simp [State.reservations, hnone]
  have hn : (channels.countP fun c => (s.chan c).rx.reserves) = ds.length := by
    rw [hcount] at hlen; exact hlen.symm
  unfold ringEnds
  rw [hn, hring]
  refine ⟨⟨ds, rfl⟩, List.length_append, ?_, fun c hc => ?_⟩
  · simp [Ring.joined, timerAfter, List.length_eq_zero_iff]
  · obtain ⟨k, hk, hmem⟩ := hmem c hc (hnone c)
    have hin : endedAs c k s ∈ (s.ring.joined ds).entries := List.mem_append_right _ hmem
    cases switches with
    | false => exact .inl (List.mem_singleton.mp hk ▸ hin)
    | true =>
      rcases List.mem_pair.mp hk with rfl | rfl
      · exact .inl hin
      · exact .inr ⟨rfl, hin⟩

theorem fall_switchPeers (aborts : Bool) (s : State) :
    switchPeers (decide (s.map.commit = .pending)) s (fall aborts s) := by
  intro c
  rw [fall_peer, Peer.noticed]
  by_cases h : s.map.commit = .pending <;> cases hg : s.map.shadow.gives .rx c <;> simp [h]

theorem fall_switchEvents (aborts : Bool) (s : State) :
    switchEvents (decide (s.map.commit = .pending)) s (fall aborts s) := by
  refine ⟨?_, fun c => ?_⟩
  · exact (fall_flag aborts s .commitDone).trans (by rw [State.switchRaises, Bool.and_true]; rfl)
  · exact (fall_flag aborts s (.peerChange c)).trans (by rw [State.switchRaises, Bool.and_assoc]; rfl)

theorem fall_raisedWithin (aborts : Bool) (s : State) : raisedWithin switchSources s (fall aborts s) := by
  refine ⟨fall_evFrame aborts s, fun x _ hx => ?_⟩
  have hflag := fall_flag aborts s x
  rw [switchRaises_of_not_mem hx, Bool.and_false, Bool.or_false] at hflag
  exact hflag

/-- From a state in which no slot is worked, a fall that issues traffic aborts leaves what R37 and R50 say. -/
theorem fall_fallen {s : State} (h : s.slot = .idle) : fallen s (fall true s) := by
  have hidle : ∀ c, ((fall true s).chan c).rx = (s.chan c).rx.closed := by
    intro c
    obtain ⟨p, hp⟩ := fall_true_chan s c
    rw [hp]; rfl
  refine ⟨(fall_slot ..).trans h, fall_map true s, ringEnds_of_messagesEnd ?_ fun c => by rw [hidle, reserves_closed],
    fall_switchPeers true s, fun c hc => by rw [hidle, closed_of_idle hc], ?_⟩
  · by_cases hp : s.map.commit = .pending <;> simpa [State.fallCauses, hp] using fall_messagesEnd true s
  · have hframe := congrArg (fun t : State => ({ t with cmd := s.cmd, tim := s.tim, slot := s.slot, dataHeld := s.dataHeld } : State))
      (fall_frame true s)
    exact hframe

theorem fall_abortedChannel (s : State) (c : Chan) : abortedChannel (s.chan c) ((fall true s).chan c) := by
  obtain ⟨p, hp⟩ := fall_true_chan s c
  rw [hp]
  exact abortedChannel_aborted _ p

end Sys2Proof.Machine
end

section
/-! PROOFS. The delivery of a slot's result (spec 01, R11, R13): which part of the state it leaves, and that a happening which
settles the slot first does what it does after that delivery (R15). -/

namespace Sys2Proof.Machine

open Sys2Proof

/-- The state with what the working of a slot may change taken from another. -/
def State.unworked (s t : State) : State :=
  { t with slot := s.slot, chans := s.chans, pool := s.pool, ring := s.ring, ev := s.ev, arb := s.arb }

@[simp] theorem unworked_setRx (s t : State) (c : Chan) (u : RxUnit) : s.unworked (t.setRx c u) = s.unworked t := rfl
@[simp] theorem unworked_returnReservation (s t : State) : s.unworked (returnReservation t) = s.unworked t := rfl

/-! ## ECHO_RESULT -/

theorem abortMatched_unworked (s : State) (c : Chan) (t : State) : s.unworked (abortMatched c t) = s.unworked t := by
  unfold abortMatched
  dsimp only
  split <;> rfl

theorem matchedEcho_unworked (s : State) (c : Chan) (f : TxFlight) (t : State) :
    s.unworked (matchedEcho c f t) = s.unworked t := by
  unfold matchedEcho
  split
  · exact abortMatched_unworked s c t
  · rfl

theorem collide_unworked (s : State) (c : Chan) (f : TxFlight) (t : State) :
    s.unworked (collide c f t) = s.unworked t := by
  unfold collide
  dsimp only
  split <;> rfl

theorem outstandingTest_unworked (s : State) (c : Chan) (reenabled : Bool) (t : State) :
    s.unworked (outstandingTest c reenabled t) = s.unworked t := by
  unfold outstandingTest
  dsimp only
  split
  · split <;> rfl
  · rfl

theorem txEcho_unworked (s : State) (c : Chan) (ok : Bool) (t : State) : s.unworked (txEcho c ok t) = s.unworked t := by
  unfold txEcho
  split
  · rfl
  · rw [outstandingTest_unworked]
    split
    · exact matchedEcho_unworked ..
    · split
      · exact collide_unworked ..
      · rfl

theorem reportEcho_unworked (s : State) (c : Chan) (ok : Bool) (t : State) :
    s.unworked (reportEcho c ok t) = s.unworked t := txEcho_unworked s c ok t

theorem advanceSlot_unworked (s : State) (k : Nat) (t : State) : s.unworked (advanceSlot k t) = s.unworked t := by
  unfold advanceSlot
  split <;> rfl

theorem echoStep_unworked (s t : State) : s.unworked (echoStep t) = s.unworked t := by
  unfold echoStep
  split
  · split
    · split
      · rw [advanceSlot_unworked, reportEcho_unworked]
      · rfl
    · rfl
  · rfl
  · rfl

/-! ## RX_WORD -/

/-- What changes the pool and the channels alone. -/
theorem unworked_of_frame {s t u : State} (h : { u with pool := t.pool, chans := t.chans } = t) :
    s.unworked u = s.unworked t := by
  have h' := congrArg s.unworked h; exact h'

theorem closeMsg_unworked (s : State) (c : Chan) (cause : MsgStatus) (t : State) :
    s.unworked (closeMsg c cause t) = s.unworked t := by
  rw [closeMsg_joined]; rfl

theorem freeChain_unworked (s : State) (c : Chan) (first : Option BlockNo) (t : State) :
    s.unworked (freeChain c first t) = s.unworked t := unworked_of_frame (freeChain_frame c first t)

theorem discardMsg_unworked (s : State) (c : Chan) (t : State) : s.unworked (discardMsg c t) = s.unworked t := by
  unfold discardMsg
  split
  · rw [unworked_setRx, unworked_returnReservation, freeChain_unworked]
  · split <;> rfl

theorem overrunMsg_unworked (s : State) (c : Chan) (t : State) : s.unworked (overrunMsg c t) = s.unworked t := by
  rw [overrunMsg, unworked_setRx, freeChain_unworked]

theorem putByte_unworked (s : State) (c : Chan) (k : BlockNo) (b : Byte) (t : State) :
    s.unworked (putByte c k b t) = s.unworked t := rfl

theorem storeByte_unworked (s : State) (c : Chan) (b : Byte) (t : State) :
    s.unworked (storeByte c b t) = s.unworked t := by
  unfold storeByte
  dsimp only
  split
  · rfl
  · split
    · rfl
    · split
      · exact overrunMsg_unworked ..
      · split
        · rw [putByte_unworked, unworked_of_frame (grant_frame ..)]
        · exact overrunMsg_unworked ..

theorem beginMsg_unworked (s : State) (c : Chan) (b : Byte) (t : State) :
    s.unworked (beginMsg c b t) = s.unworked t := by
  unfold beginMsg
  split
  · exact storeByte_unworked ..
  · rfl

theorem takeByte_unworked (s : State) (c : Chan) (b : Byte) (t : State) :
    s.unworked (takeByte c b t) = s.unworked t := by
  unfold takeByte
  split
  · exact beginMsg_unworked ..
  · exact storeByte_unworked ..
  all_goals rfl

theorem takeMessageWord_unworked (s : State) (c : Chan) (b : Byte) (last : Bool) (t : State) :
    s.unworked (takeMessageWord c b last t) = s.unworked t := by
  unfold takeMessageWord
  split
  · dsimp only
    split
    · rw [closeMsg_unworked]; exact takeByte_unworked ..
    · exact takeByte_unworked ..
  · rfl

theorem takeCorrupt_unworked (s : State) (c : Chan) (t : State) : s.unworked (takeCorrupt c t) = s.unworked t := by
  unfold takeCorrupt
  split
  · split <;> rfl
  · rfl

theorem takeAbort_unworked (s : State) (c : Chan) (t : State) : s.unworked (takeAbort c t) = s.unworked t := by
  unfold takeAbort
  split
  · exact discardMsg_unworked ..
  · rfl

theorem takePause_unworked (s : State) (c : Chan) (t : State) : s.unworked (takePause c t) = s.unworked t := by
  unfold takePause
  dsimp only
  split <;> rfl

theorem takeResume_unworked (s : State) (c : Chan) (t : State) : s.unworked (takeResume c t) = s.unworked t := by
  unfold takeResume
  dsimp only
  split <;> rfl

theorem deliver_unworked (s : State) (c : Chan) (k : RxClass) (t : State) :
    s.unworked (deliver c k t) = s.unworked t := by
  cases k with
  | silent => rfl
  | idle => rfl
  | corrupt => exact takeCorrupt_unworked ..
  | data b => exact takeMessageWord_unworked ..
  | last b => exact takeMessageWord_unworked ..
  | abort => exact takeAbort_unworked ..
  | pause => exact takePause_unworked ..
  | resume => exact takeResume_unworked ..
  | unknownCtrl => rfl

theorem rxWordStep_unworked (s t : State) : s.unworked (rxWordStep t) = s.unworked t := by
  unfold rxWordStep
  split
  · split
    · rw [advanceSlot_unworked, deliver_unworked]
    · rfl
  · rfl
  · rfl

/-! ## A slot is settled -/

/-- The delivery of a result changes nothing but the slot, the channels, the pool, the ring, the event unit and the model's
counter. -/
theorem settleSlot_unworked (s t : State) : s.unworked (settleSlot t) = s.unworked t :=
  (rxWordStep_unworked ..).trans (echoStep_unworked ..)

@[simp] theorem settleSlot_tim (s : State) : (settleSlot s).tim = s.tim := by
  have h := congrArg State.tim (settleSlot_unworked s s); exact h

@[simp] theorem settleSlot_resetn (s : State) : (settleSlot s).resetn = s.resetn := by
  have h := congrArg State.resetn (settleSlot_unworked s s); exact h

/-- A slot whose result is due is a TX slot with its word driven or an RX slot, and settling it is the one delivery (R11, R13). -/
theorem settleSlot_of_over {s : State} (h : s.slotOver = true) :
    (settleSlot s = echoStep s ∨ settleSlot s = rxWordStep s) ∧ (settleSlot s).slotOver = false := by
  unfold State.slotOver at h
  split at h
  · rename_i x hx
    simp only [Bool.and_eq_true, Bool.or_eq_true, decide_eq_true_eq] at h
    obtain ⟨hbits, hrx | ⟨htx, hword⟩⟩ := h
    · have hecho : echoStep s = s := by cases hw : x.word <;> simp [echoStep, hx, hrx, hw]
      have hover : (rxWordStep s).slotOver = false := by simp [rxWordStep, hx, hrx, hbits, advanceSlot_over]
      rw [settleSlot, hecho]
      exact ⟨.inr rfl, hover⟩
    · obtain ⟨w, hw⟩ := Option.isSome_iff_exists.mp hword
      have hover : (echoStep s).slotOver = false := by simp [echoStep, hx, hw, htx, hbits, advanceSlot_over]
      rw [settleSlot, rxWordStep_of_not_over hover]
      exact ⟨.inl rfl, hover⟩
  · exact absurd h Bool.false_ne_true

/-- After settling no result is due. -/
theorem settleSlot_over (s : State) : (settleSlot s).slotOver = false := by
  cases h : s.slotOver with
  | false => rwa [settleSlot_of_not_over h]
  | true => exact (settleSlot_of_over h).2

/-- A slot is abandoned as the slot that its delivery leaves. -/
@[simp] theorem abandonSlot_settleSlot (s : State) : abandonSlot (settleSlot s) = abandonSlot s := by
  rw [abandonSlot, settleSlot_of_not_over (settleSlot_over s), abandonSlot]

theorem abandonSlot_of_not_over {s : State} (h : s.slotOver = false) : abandonSlot s = dropSlot s := by
  rw [abandonSlot, settleSlot_of_not_over h]

/-- A command that does the same from the settled state delivers a result that is due first (R15). -/
theorem resultFirst_of_settled {i : Instr} {s : State} (hs : s.resetn = true) (h : exec i s = exec i (settleSlot s)) :
    resultFirst i s := by
  intro hover
  obtain ⟨hdelivered, hafter⟩ := settleSlot_of_over hover
  refine ⟨settleSlot s, hdelivered.imp (fun he => ?_) (fun hr => ?_), hafter, h⟩
  · rw [he]; exact congrArg _ (outOfReset_high echoStep hs)
  · rw [hr]; exact congrArg _ (outOfReset_high rxWordStep hs)

end Sys2Proof.Machine
end

section
/-! PROOFS. The host takes the timing unit out of its state (spec 02, R21, R22): the slot abandoned, the lines released, and what its
fall brings to the other blocks (R37, R50). -/

namespace Sys2Proof.Machine

open Sys2Proof

/-! ## The pins after a slot is abandoned -/

/-- A part that does not drive the clock leaves HWCLK and HWSYNC as inputs (R1, R19). -/
theorem clockPins_of_not_driving {s : State} (h : s.tim.st ≠ .driving) : s.hwclkPin = none ∧ s.hwsyncPin = none := by
  simp [State.hwclkPin, State.hwsyncPin, State.drivesClock, h]

/-- HWDATA is read from the pull left and the slot alone. -/
theorem pullsData_congr {s t : State} (hh : t.dataHeld = s.dataHeld) (hx : t.slot = s.slot) : t.pullsData = s.pullsData := by
  simp only [State.pullsData, State.slotPulls, hh, hx]

/-- The fall of the unit to the timing unit t, where no result is due: the slot is abandoned and the part falls (R15, R37). -/
def State.fallTo (s : State) (t : Timing) : State := fall s.tim.st.aborts { dropSlot s with tim := t }

@[simp] theorem fallTo_tim (s : State) (t : Timing) : (s.fallTo t).tim = t := fall_tim ..

/-- HWDATA after such a fall is as the abandoned slot leaves it (R15). -/
theorem fallTo_pulls (s : State) (t : Timing) :
    (s.fallTo t).pullsData = (decide (s.dataHeld ≠ .released) || (s.pullsData && s.bitBegun)) := by
  have h : (s.fallTo t).pullsData = (dropSlot s).pullsData := pullsData_congr (fall_dataHeld ..) (fall_slot ..)
  rw [h, dropSlot_pulls, DataHold.pulls_eq]

/-- A pull left then is timed by the clock the part worked to (R15, R17). -/
theorem fallTo_hold {s : State} {t : Timing} (h : s.dataHeld = .released) (hp : (s.fallTo t).pullsData = true) :
    (s.fallTo t).dataHeld = if s.tim.st = .driving then .toLocalBit else .toLineBit false := by
  have hdrop : (s.fallTo t).pullsData = (dropSlot s).pullsData := pullsData_congr (fall_dataHeld ..) (fall_slot ..)
  exact (fall_dataHeld ..).trans (dropSlot_hold h (hdrop ▸ hp))

/-- From LOCKED, DRIVING and FLYWHEEL the fall issues a traffic abort at every channel (R37). -/
theorem fallTo_aborts {s : State} {t : Timing} (hst : s.tim.st = .locked ∨ s.tim.st = .driving ∨ s.tim.st = .flywheel)
    (hcnt : t.frameCnt = s.tim.frameCnt) :
    fallen s (s.fallTo t) ∧ ∀ c, abortedChannel (s.chan c) ((s.fallTo t).chan c) := by
  have haborts : s.tim.st.aborts = true := by rcases hst with h | h | h <;> rw [h] <;> rfl
  have hended : ∀ c k, endedAs c k { dropSlot s with tim := t } = endedAs c k s := by
    intro c k
    simp only [endedAs, hcnt]
    rfl
  rw [State.fallTo, haborts]
  obtain ⟨hslot, hmap, hring, hpeers, hseen, hframe⟩ := fall_fallen (s := { dropSlot s with tim := t }) rfl
  simp only [ringEnds, hended] at hring
  have hrest := congrArg (fun u : State => ({ u with tim := s.tim, slot := s.slot, dataHeld := s.dataHeld } : State)) hframe
  exact ⟨⟨hslot, hmap, hring, hpeers, hseen, hrest⟩, fall_abortedChannel { dropSlot s with tim := t }⟩

/-- From LISTEN and SEARCH without a pending commit the fall brings nothing to the other blocks. -/
theorem fallTo_quiet {s : State} {t : Timing} (hst : s.tim.st = .listen ∨ s.tim.st = .search) (hc : s.map.commit = .idle) :
    s.fallTo t = { dropSlot s with tim := t } := by
  have haborts : s.tim.st.aborts = false := by rcases hst with h | h <;> rw [h] <;> rfl
  have hidle : (dropSlot s).map.commit ≠ .pending := by simp [hc]
  rw [State.fallTo, haborts, fall_quiet, if_neg hidle]

/-- The flags and peer presence over the fall follow the switch of a pending commit (R49, R50, R74). -/
theorem fallTo_switch (s : State) (t : Timing) :
    raisedWithin switchSources s (s.fallTo t) ∧ switchEvents (decide (s.map.commit = .pending)) s (s.fallTo t) ∧
      switchPeers (decide (s.map.commit = .pending)) s (s.fallTo t) :=
  ⟨fall_raisedWithin _ { dropSlot s with tim := t }, fall_switchEvents _ { dropSlot s with tim := t },
    fall_switchPeers _ { dropSlot s with tim := t }⟩

/-! ## TIMING_RESTART (R22) -/

/-- The timing unit after a restart: as at enable, with the yielded flag clear and the loss cause kept (R20, R22). -/
def Timing.restarted (t : Timing) : Timing := { t.entered with yielded := false }

theorem entryState_ne_driving (r : Role) : entryState r ≠ .driving := by cases r <;> decide

theorem exec_timingRestart {s : State} (h : s.resetn = true) : exec .timingRestart s = .next (timingRestartCmd s) :=
  congrArg _ (outOfReset_high _ h)

/-- In OFF the command is refused (R22). -/
theorem timingRestartCmd_off {s : State} (h : s.tim.st = .off) :
    timingRestartCmd s = { s with cmd := { result := .refused, reason := .notRunning, code := 0x03 } } := if_pos h

/-- Outside OFF the slot is settled and abandoned, the unit is at its entry state, and the fall takes its effect (R22). -/
theorem timingRestartCmd_running {s : State} (h : s.tim.st ≠ .off) :
    timingRestartCmd s = setCmd .done .none 0x03 (fall s.tim.st.aborts { abandonSlot s with tim := s.tim.restarted }) :=
  if_neg h

/-- A result that is due comes first: the restart is the same after it (R15). -/
theorem timingRestartCmd_settled {s : State} (h : s.tim.st ≠ .off) :
    timingRestartCmd (settleSlot s) = timingRestartCmd s := by
  have h' : (settleSlot s).tim.st ≠ .off := by rwa [settleSlot_tim]
  rw [timingRestartCmd_running h', timingRestartCmd_running h, settleSlot_tim, abandonSlot_settleSlot]

/-- Where no result is due, the restart is the fall to the entry state. -/
theorem timingRestartCmd_not_over {s : State} (h : s.tim.st ≠ .off) (hover : s.slotOver = false) :
    timingRestartCmd s = setCmd .done .none 0x03 (s.fallTo s.tim.restarted) := by
  rw [timingRestartCmd_running h, abandonSlot_of_not_over hover, State.fallTo]

/-- Settles O18: refused in OFF; elsewhere a result that is due comes first, and the rest is the fall to the entry state, of which
each part is a lemma above. -/
theorem timingRestartReenters : Obligations.TimingRestartReenters := by
  unfold Obligations.TimingRestartReenters
  intro s hs
  refine ⟨fun hoff => ?refused, fun hrun => ?result, fun hrun hover => ?restarts⟩
  case refused => rw [exec_timingRestart hs, timingRestartCmd_off hoff]
  case result =>
    refine resultFirst_of_settled hs ?_
    rw [exec_timingRestart hs, exec_timingRestart (by rwa [settleSlot_resetn]), timingRestartCmd_settled hrun]
  case restarts =>
    have htim := fallTo_tim s s.tim.restarted
    have hdriving : (s.fallTo s.tim.restarted).tim.st ≠ .driving := by
      rw [htim]; exact entryState_ne_driving s.tim.role
    obtain ⟨hclk, hsync⟩ := clockPins_of_not_driving hdriving
    obtain ⟨hraised, hevents, hpeers⟩ := fallTo_switch s s.tim.restarted
    refine ⟨_, exec_timingRestart hs, ?_⟩
    rw [timingRestartCmd_not_over hrun hover]
    refine ⟨htim, rfl, hclk, hsync, fallTo_pulls s _, fallTo_hold, hraised, hevents, hpeers, fun hst => ?aborts,
      fun hst hidle => ?quiet⟩
    case aborts => exact fallTo_aborts hst rfl
    case quiet => rw [fallTo_quiet hst hidle]; rfl

end Sys2Proof.Machine
end

section
/-! PROOFS. CANCEL (spec 03, R51), and a COMMIT that a check refuses (R46, R47): which check fails first, and what the refusal
changes. -/

namespace Sys2Proof.Machine

open Sys2Proof

/-! ## CANCEL -/

theorem exec_cancel {s : State} (h : s.resetn = true) : exec .cancel s = .next (cancelCmd s) := congrArg _ (outOfReset_high _ h)

theorem not_pending_of_idle {s : State} (h : s.map.commit = .idle) : s.map.commit ≠ .pending := by simp [h]

theorem cancelCmd_pending {s : State} (h : s.map.commit = .pending) :
    cancelCmd s = setCmd .done .none 0x02 { s with map := s.map.cancelled } := if_pos h

theorem cancelCmd_idle {s : State} (h : s.map.commit = .idle) : cancelCmd s = setCmd .refused .nothingPending 0x02 s :=
  if_neg (not_pending_of_idle h)

/-- Settles O12: a pending commit is cancelled, and without one the command is refused. -/
theorem cancelEndsPendingCommit : Obligations.CancelEndsPendingCommit := by
  unfold Obligations.CancelEndsPendingCommit
  intro s hs
  rw [exec_cancel hs]
  refine ⟨fun hpending => ?cancelled, fun hidle => ?refused⟩
  case cancelled => rw [cancelCmd_pending hpending]; rfl
  case refused => rw [cancelCmd_idle hidle]; rfl

/-! ## The entries of a bank (R41) -/

theorem Bank.slots_le (b : Bank) : b.slots ≤ 32 := by
  have := b.len.isLt
  unfold Bank.slots
  omega

theorem Bank.entry_val (b : Bank) (k : SlotNo) : b.entry k.val = b.entries.get k := dif_pos k.isLt

/-- A bank gives a channel a slot by an entry below its frame length (R41). -/
theorem Bank.gives_iff {b : Bank} {m : SlotMode} {c : Chan} :
    b.gives m c = true ↔ ∃ k : SlotNo, k.val < b.slots ∧ b.entries.get k = { mode := m, chan := c } := by
  simp only [Bank.gives, List.any_eq_true, List.mem_range, decide_eq_true_eq]
  constructor
  · rintro ⟨k, hk, he⟩
    have hk32 : k < 32 := hk.trans_le b.slots_le
    exact ⟨⟨k, hk32⟩, hk, (b.entry_val ⟨k, hk32⟩).symm.trans he⟩
  · rintro ⟨k, hk, he⟩
    exact ⟨k.val, hk, (b.entry_val k).trans he⟩

/-! ## The checks of COMMIT (R46) -/

/-- Check 1 fails: the frame length would change outside OFF. -/
def State.lengthLocked (s : State) : Prop := s.map.shadow.len ≠ s.map.active.len ∧ s.tim.st ≠ .off

/-- An entry that fails check 2: in use at or above the frame length. -/
def Bank.inUseBeyond (b : Bank) (k : Nat) : Prop := b.slots ≤ k ∧ (b.entry k).mode ≠ .unused

/-- A channel that fails check 3: it receives with flow control, and SHADOW gives it an RX slot and no TX slot. -/
def State.lacksReturnPath (s : State) (c : Chan) : Prop :=
  (s.chan c).cfg.rx = true ∧ (s.chan c).cfg.fc = true ∧ s.map.shadow.gives .rx c = true ∧ s.map.shadow.gives .tx c = false

/-- Check 2 names the lowest entry that fails it. -/
theorem Bank.beyond_of_lowest {b : Bank} {k : SlotNo} (hk : b.inUseBeyond k) (hlow : ∀ j : SlotNo, j < k → ¬ b.inUseBeyond j) :
    b.beyond = some k.val := by
  simp only [Bank.beyond, List.find?_range_eq_some, List.mem_range, Bool.and_eq_true, decide_eq_true_eq, Bool.not_eq_true',
    Bool.and_eq_false_iff, decide_eq_false_iff_not]
  refine ⟨hk, k.isLt, fun j hj => ?_⟩
  exact not_and_or.mp (hlow ⟨j, hj.trans k.isLt⟩ hj)

theorem Bank.beyond_of_none {b : Bank} (h : ∀ k : SlotNo, ¬ b.inUseBeyond k) : b.beyond = none := by
  simp only [Bank.beyond, List.find?_range_eq_none, Bool.not_eq_true', Bool.and_eq_false_iff, decide_eq_false_iff_not]
  exact fun k hk => not_and_or.mp (h ⟨k, hk⟩)

theorem channels_eq_finRange : channels = List.finRange 8 := by decide

theorem find?_channels_eq_some {p : Chan → Bool} {c : Chan} :
    channels.find? p = some c ↔ p c = true ∧ ∀ d < c, p d = false := by
  rw [channels_eq_finRange, ← Fin.find?_eq_find?_finRange, Fin.find?_eq_some_iff]

/-- Check 3 names the lowest channel that fails it. -/
theorem noReturnChan_of_lowest {s : State} {c : Chan} (hc : s.lacksReturnPath c) (hlow : ∀ d < c, ¬ s.lacksReturnPath d) :
    s.noReturnChan s.map.shadow = some c := by
  have htest : ∀ d, ((s.chan d).cfg.rx && (s.chan d).cfg.fc && s.map.shadow.noReturn d) = true ↔ s.lacksReturnPath d := by
    simp [State.lacksReturnPath, Bank.noReturn, and_assoc]
  refine find?_channels_eq_some.mpr ⟨(htest c).mpr hc, fun d hd => ?_⟩
  exact Bool.eq_false_iff.mpr (mt (htest d).mp (hlow d hd))

theorem commitCheck_of_lengthLocked {s : State} (h : s.lengthLocked) : commitCheck s = some (.lengthLocked, 0) := if_pos h

theorem commitCheck_of_beyond {s : State} (h : ¬ s.lengthLocked) {k : Nat} (hk : s.map.shadow.beyond = some k) :
    commitCheck s = some (.slotBeyondFrame, k) := by
  rw [State.lengthLocked] at h
  rw [commitCheck, if_neg h, hk]

theorem commitCheck_of_noReturn {s : State} (h : ¬ s.lengthLocked) (hb : s.map.shadow.beyond = none) {c : Chan}
    (hc : s.noReturnChan s.map.shadow = some c) : commitCheck s = some (.noReturnPath, c.val) := by
  rw [State.lengthLocked] at h
  rw [commitCheck, if_neg h, hb]
  simp only [hc]

/-! ## A refused COMMIT (R47) -/

theorem exec_commit {s : State} (h : s.resetn = true) : exec .commit s = .next (commitCmd s) := congrArg _ (outOfReset_high _ h)

theorem commitCmd_pending {s : State} (h : s.map.commit = .pending) : commitCmd s = setCmd .refused .busy 0x01 s := if_pos h

theorem commitCmd_refused {s : State} (h : s.map.commit = .idle) {reason : Reason} {detail : Nat}
    (hc : commitCheck s = some (reason, detail)) : commitCmd s = refuseCommit reason detail s := by
  rw [commitCmd, if_neg (not_pending_of_idle h), hc]

/-- A latched source is pending while its flag is set (R160). -/
theorem isPending_eq_flag {x : Source} (h : x.conditional = false) (s : State) : s.isPending x = s.flag x := by
  cases x with
  | rxReady => cases h
  | txSpace c => cases h
  | _ => rfl

/-- The refusal raises COMMIT_REFUSED and no other source. -/
theorem refuseCommit_isPending (reason : Reason) (detail : Nat) (s : State) (x : Source) :
    (refuseCommit reason detail s).isPending x = (s.isPending x || decide (x = .commitRefused)) := by
  cases hx : x.conditional with
  | false =>
    rw [isPending_eq_flag hx, isPending_eq_flag hx]
    exact latched_set ..
  | true =>
    cases x with
    | rxReady => exact (Bool.or_false _).symm
    | txSpace c => exact (Bool.or_false _).symm
    | _ => cases hx

/-- What a COMMIT refused by a check changes (R47). -/
def commitRefusedAs (s : State) (reason : Reason) (detail : Nat) (t : State) : Prop :=
  t.cmd = { result := .refused, reason := reason, code := 0x01 } ∧
  t.map = { s.map with result := .refused, reason := reason, detail := detail } ∧
  t.isPending .commitRefused = true ∧ t.ev = { s.ev with latched := t.ev.latched, refusedDetail := reason } ∧
  (∀ x ∈ allSources, x ≠ .commitRefused → t.isPending x = s.isPending x) ∧
  { t with cmd := s.cmd, map := s.map, ev := s.ev } = s

theorem refuseCommit_commitRefusedAs (reason : Reason) (detail : Nat) (s : State) :
    commitRefusedAs s reason detail (refuseCommit reason detail s) := by
  refine ⟨rfl, rfl, ?raised, rfl, fun x _ hx => ?others, rfl⟩
  case raised => simp [refuseCommit_isPending]
  case others => simp [refuseCommit_isPending, hx]

/-- The check that fails first decides the refusal. -/
theorem exec_commit_refused {s : State} (hs : s.resetn = true) (hidle : s.map.commit = .idle) {reason : Reason} {detail : Nat}
    (hc : commitCheck s = some (reason, detail)) : ∃ t, exec .commit s = .next t ∧ commitRefusedAs s reason detail t :=
  ⟨_, (exec_commit hs).trans (congrArg _ (commitCmd_refused hidle hc)), refuseCommit_commitRefusedAs ..⟩

/-- Settles O10: BUSY while a commit is pending; in IDLE the first check that fails gives the reason and the detail. -/
theorem commitRefused : Obligations.CommitRefused := by
  unfold Obligations.CommitRefused
  refine ⟨fun b k => ⟨rfl, b.entry_val k⟩, fun b m c => Bank.gives_iff, fun s hs => ?_⟩
  refine ⟨fun hpending => ?busy, fun hidle hlen => ?length, fun hidle hlen k hk hlow => ?beyond,
    fun hidle hlen hnone c hc hlow => ?noReturn⟩
  case busy => rw [exec_commit hs, commitCmd_pending hpending]; rfl
  case length => exact exec_commit_refused hs hidle (commitCheck_of_lengthLocked hlen)
  case beyond => exact exec_commit_refused hs hidle (commitCheck_of_beyond hlen (Bank.beyond_of_lowest hk hlow))
  case noReturn =>
    exact exec_commit_refused hs hidle
      (commitCheck_of_noReturn hlen (Bank.beyond_of_none hnone) (noReturnChan_of_lowest hc hlow))

end Sys2Proof.Machine
end

section
/-! PROOFS. Writes to MAPDATA and MAPHDR (spec 03, R44, R45): which are ignored or rejected, what is stored in SHADOW, and when the
slot index advances. -/

namespace Sys2Proof.Machine

open Sys2Proof

/-! ## Entries and the slot index -/

theorem modeOfCode_three : modeOfCode 3 = none := rfl

theorem modeOfCode_code (m : SlotMode) : modeOfCode m.code = some m := by cases m <;> rfl

/-- Of the four values of the mode field, code 3 alone names no mode (R44). -/
theorem exists_mode_of_code {n : Nat} (h : n < 4) (h3 : n ≠ 3) : ∃ m : SlotMode, m.code = n := by
  interval_cases n
  · exact ⟨.unused, rfl⟩
  · exact ⟨.tx, rfl⟩
  · exact ⟨.rx, rfl⟩
  · exact absurd rfl h3

/-- The entry that a MAPDATA word with a mode in its mode field stores (R44). -/
def storedEntry (w : Word) : MapEntry :=
  let code := (w.extractLsb' 8 2).toNat
  if code = 0 then { mode := .unused, chan := 0 }
  else { mode := if code = 1 then .tx else .rx, chan := Fin.ofNat 8 (w.extractLsb' 0 3).toNat }

theorem chanField_eq_ofNat (w : Word) (lo : Nat) : chanField w lo = Fin.ofNat 8 (w.extractLsb' lo 3).toNat := by
  rw [← field_eq_extractLsb']; rfl

theorem entryOfWord_eq_storedEntry {w : Word} {m : SlotMode} (hm : m.code = (w.extractLsb' 8 2).toNat) :
    entryOfWord m w = storedEntry w := by
  unfold storedEntry
  rw [← hm, ← chanField_eq_ofNat]
  cases m <;> rfl

/-- The slot index advances with auto-increment, from 31 to 0 (R43, R44). -/
theorem advanced_index (m : MapUnit) :
    m.advanced.index.val = if m.autoInc then (m.index.val + 1) % 32 else m.index.val := by
  unfold MapUnit.advanced
  split
  · exact Fin.val_add m.index 1
  · rfl

theorem storeEntry_index (m : MapUnit) (e : MapEntry) :
    (m.storeEntry e).index.val = if m.autoInc then (m.index.val + 1) % 32 else m.index.val := advanced_index _

theorem advanced_shadow (m : MapUnit) : m.advanced.shadow = m.shadow := by
  unfold MapUnit.advanced
  split <;> rfl

/-- The entry at the slot index is stored, and no other entry of SHADOW changes (R44). -/
theorem storeEntry_entry (m : MapUnit) (e : MapEntry) (k : SlotNo) :
    (m.storeEntry e).shadow.entries.get k = if k = m.index then e else m.shadow.entries.get k := by
  rw [MapUnit.storeEntry, advanced_shadow]
  show (m.shadow.entries.set m.index.val e m.index.isLt)[k.val] = if k = m.index then e else m.shadow.entries[k.val]
  rw [Vector.getElem_set]
  simp only [Fin.val_inj, eq_comm (a := k)]

/-- A stored entry leaves all but the entries of SHADOW and the slot index. -/
theorem storeEntry_frame (m : MapUnit) (e : MapEntry) :
    { m.storeEntry e with
        shadow := { (m.storeEntry e).shadow with entries := m.shadow.entries }, index := m.index } = m := by
  unfold MapUnit.storeEntry MapUnit.advanced
  split <;> rfl

/-! ## Writes to MAPDATA -/

theorem exec_mapdataWrite (w : Word) {s : State} (h : s.resetn = true) :
    exec (.mapdataWrite w) s = .next (writeMapdata w s) := congrArg _ (outOfReset_high _ h)

theorem writeMapdata_pending (w : Word) {s : State} (h : s.map.commit = .pending) : writeMapdata w s = mapIgnored s := if_pos h

theorem writeMapdata_selActive (w : Word) {s : State} (h : s.map.commit = .idle) (hsel : s.map.selActive = true) :
    writeMapdata w s = reject s := by
  rw [writeMapdata, if_neg (not_pending_of_idle h), if_pos hsel]

/-- With SHADOW selected the mode code decides. -/
theorem writeMapdata_selShadow (w : Word) {s : State} (h : s.map.commit = .idle) (hsel : s.map.selActive = false) :
    writeMapdata w s = (modeOfCode (w.extractLsb' 8 2).toNat).elim (reject s) fun m =>
      { s with map := s.map.storeEntry (entryOfWord m w) } := by
  rw [writeMapdata, if_neg (not_pending_of_idle h), if_neg (by simp [hsel]), field_eq_extractLsb']
  cases modeOfCode (w.extractLsb' 8 2).toNat <;> rfl

theorem writeMapdata_codeThree {w : Word} {s : State} (h : s.map.commit = .idle) (hsel : s.map.selActive = false)
    (h3 : (w.extractLsb' 8 2).toNat = 3) : writeMapdata w s = reject s := by
  rw [writeMapdata_selShadow w h hsel, h3, modeOfCode_three, Option.elim_none]

theorem writeMapdata_stores {w : Word} {s : State} (h : s.map.commit = .idle) (hsel : s.map.selActive = false)
    (h3 : (w.extractLsb' 8 2).toNat ≠ 3) : writeMapdata w s = { s with map := s.map.storeEntry (storedEntry w) } := by
  obtain ⟨m, hm⟩ := exists_mode_of_code (w.extractLsb' 8 2).isLt h3
  rw [writeMapdata_selShadow w h hsel, ← hm, modeOfCode_code, Option.elim_some, entryOfWord_eq_storedEntry hm]

/-! ## Reads and writes of MAPHDR -/

theorem exec_maphdrWrite (w : Word) {s : State} (h : s.resetn = true) :
    exec (.maphdrWrite w) s = .next (writeMaphdr w s) := congrArg _ (outOfReset_high _ h)

theorem writeMaphdr_pending (w : Word) {s : State} (h : s.map.commit = .pending) : writeMaphdr w s = mapIgnored s := if_pos h

theorem writeMaphdr_idle (w : Word) {s : State} (h : s.map.commit = .idle) :
    writeMaphdr w s =
      { s with map := { s.map with shadow := { s.map.shadow with len := Fin.ofNat 4 (w.extractLsb' 0 2).toNat } } } := by
  rw [writeMaphdr, if_neg (not_pending_of_idle h), ← field_eq_extractLsb']
  rfl

/-- MAPHDR reads the length code of SHADOW (R45). -/
theorem readRegister_maphdr {s : State} (h : s.resetn = true) :
    readRegister s 0x14 = BitVec.ofNat 16 s.map.shadow.len.val := by
  have hvalue : s.registerValue 0x14 = packWord [(0, s.map.shadow.len.val)] := rfl
  rw [readRegister, if_pos h, hvalue]
  simp [packWord]

theorem readRegister_maphdr_toNat {s : State} (h : s.resetn = true) : (readRegister s 0x14).toNat = s.map.shadow.len.val := by
  rw [readRegister_maphdr h, BitVec.toNat_ofNat]
  exact Nat.mod_eq_of_lt (s.map.shadow.len.isLt.trans (by decide))

/-- The length field of a MAPHDR word: its bits 1-0. -/
theorem maphdr_len_val (w : Word) : (Fin.ofNat 4 (w.extractLsb' 0 2).toNat).val = (w.extractLsb' 0 2).toNat :=
  Nat.mod_eq_of_lt (w.extractLsb' 0 2).isLt

theorem and_three_toNat (w : Word) : (w &&& 0x0003).toNat = (w.extractLsb' 0 2).toNat := by
  rw [BitVec.toNat_and, BitVec.extractLsb'_toNat, Nat.shiftRight_zero]
  exact Nat.and_two_pow_sub_one_eq_mod w.toNat 2

/-- The length code that a MAPHDR write stores is what MAPHDR then reads (R45). -/
theorem readRegister_writeMaphdr (w : Word) {s : State} (hs : s.resetn = true) (h : s.map.commit = .idle) :
    readRegister (writeMaphdr w s) 0x14 = w &&& 0x0003 := by
  have hhigh : (writeMaphdr w s).resetn = true := by rw [writeMaphdr_idle w h]; exact hs
  apply BitVec.eq_of_toNat_eq
  rw [readRegister_maphdr_toNat hhigh, and_three_toNat, writeMaphdr_idle w h]
  exact maphdr_len_val w

/-- Settles O13: the conditions of R44 in their order, then MAPHDR, each by its lemma above. -/
theorem mapWritesStoreInShadow : Obligations.MapWritesStoreInShadow := by
  unfold Obligations.MapWritesStoreInShadow
  intro w s hs
  rw [exec_mapdataWrite w hs, exec_maphdrWrite w hs]
  refine ⟨fun hpending => ?ignored, fun hidle hsel => ?active, fun hidle hsel h3 => ?codeThree, fun hidle hsel h3 => ?stored,
    readRegister_maphdr_toNat hs, fun hpending => ?headerIgnored, fun hidle => ?header⟩
  case ignored => rw [writeMapdata_pending w hpending]; rfl
  case active => rw [writeMapdata_selActive w hidle hsel]; rfl
  case codeThree => rw [writeMapdata_codeThree hidle hsel h3]; rfl
  case stored =>
    rw [writeMapdata_stores hidle hsel h3]
    refine ⟨_, rfl, storeEntry_entry s.map (storedEntry w), storeEntry_index s.map (storedEntry w), ?_⟩
    exact congrArg (fun m => { s with map := m }) (storeEntry_frame s.map (storedEntry w))
  case headerIgnored => rw [writeMaphdr_pending w hpending]; rfl
  case header =>
    refine ⟨_, rfl, ?_, readRegister_writeMaphdr w hs hidle, ?_⟩
    · rw [writeMaphdr_idle w hidle]; exact maphdr_len_val w
    · rw [writeMaphdr_idle w hidle]

end Sys2Proof.Machine
end

section
/-! PROOFS. Writes to CHCFG1 to CHCFG7 (spec 04, R61 to R65): which words are rejected, what an accepted word stores and reads back
as, and what a new HW or LW does to the flow unit (spec 08, R142, R145, R146). -/

namespace Sys2Proof.Machine

open Sys2Proof

/-! ## Fields put back in their positions -/

/-- A field of a word, put back in its position, is the word with every other bit 0. -/
theorem ofNat_field_shifted (w : Word) (lo len : Nat) :
    BitVec.ofNat 16 (field w lo len * 2 ^ lo) = w &&& BitVec.ofNat 16 ((2 ^ len - 1) * 2 ^ lo) := by
  ext i hi
  rw [← BitVec.getLsbD_eq_getElem hi, ← BitVec.getLsbD_eq_getElem hi]
  simp only [field, BitVec.getLsbD_and, BitVec.getLsbD_ofNat, Nat.testBit_mul_two_pow, Nat.testBit_mod_two_pow,
    Nat.testBit_div_two_pow, Nat.testBit_two_pow_sub_one, BitVec.testBit_toNat, hi, decide_true, Bool.true_and]
  by_cases hlo : lo ≤ i
  · simp [hlo, Bool.and_comm]
  · simp [hlo]

/-- Parts of a word that share no bit are added by joining their bits. -/
theorem and_add_and_of_disjoint (w : Word) {a b : Word} (h : a &&& b = 0) : (w &&& a) + (w &&& b) = w &&& (a ||| b) := by
  have hdisjoint : (w &&& a) &&& (w &&& b) = 0 := by
    rw [BitVec.and_assoc, ← BitVec.and_assoc a, BitVec.and_comm a w, BitVec.and_assoc w a, h]
    simp
  rw [BitVec.add_eq_or_of_and_eq_zero _ _ hdisjoint, BitVec.and_or_distrib_left]

theorem packWord_one_field (w : Word) (len : Nat) :
    packWord [(0, field w 0 len)] = w &&& BitVec.ofNat 16 (2 ^ len - 1) := by
  simpa [packWord] using ofNat_field_shifted w 0 len

/-! ## What the CHCFG words read -/

/-- The positions of CHCFG1 to CHCFG7 that hold a field (section 10.7). -/
def chcfgShown (n : Fin 8) : Word :=
  match n with
  | 4 => 0x0FFF | 5 => 0x0FFF | 6 => 0xF73F | 7 => 0x03FF | _ => 0x00FF

/-- CHCFGn is read from the selected channel's configuration (R60, R61). -/
theorem readRegister_chcfg {s : State} (h : s.resetn = true) (n : Fin 8) :
    readRegister s (BitVec.ofNat 6 (0x18 + n.val)) = (s.chan s.chsel).cfg.word n := by
  rw [readRegister, if_pos h]
  fin_cases n <;> rfl

/-- A written word changes what that word reads, to what does not depend on the fields before, and no other word. -/
theorem ChanCfg.word_written (g : ChanCfg) (n m : Fin 8) (w : Word) :
    (g.written n w).word m = if m = n then (ChanCfg.written {} n w).word n else g.word m := by
  fin_cases n <;> fin_cases m <;> rfl

theorem ChanCfg.word_written_other (g : ChanCfg) {n m : Fin 8} (h : m ≠ n) (w : Word) :
    (g.written n w).word m = g.word m := by
  rw [ChanCfg.word_written, if_neg h]

/-- A written word reads back in the positions that hold a field; the others read 0 (R179). -/
theorem ChanCfg.word_written_same (g : ChanCfg) {n : Fin 8} (h : n ≠ 0) (w : Word) :
    (g.written n w).word n = w &&& chcfgShown n := by
  match n with
  | 0 => exact absurd rfl h
  | 1 => exact packWord_one_field w 8
  | 2 => exact packWord_one_field w 8
  | 3 => exact packWord_one_field w 8
  | 4 => exact packWord_one_field w 12
  | 5 =>
    calc packWord [(0, field w 0 8), (8, field w 8 4)]
      _ = BitVec.ofNat 16 (field w 0 8 * 2 ^ 0) + BitVec.ofNat 16 (field w 8 4 * 2 ^ 8) := by
        simp [packWord, BitVec.ofNat_add]
      _ = (w &&& 0x00FF) + (w &&& 0x0F00) := by rw [ofNat_field_shifted, ofNat_field_shifted]; rfl
      _ = w &&& 0x0FFF := and_add_and_of_disjoint w (by decide)
  | 6 =>
    calc packWord [(0, field w 0 6), (8, field w 8 3), (12, field w 12 4)]
      _ = BitVec.ofNat 16 (field w 0 6 * 2 ^ 0) + BitVec.ofNat 16 (field w 8 3 * 2 ^ 8) +
          BitVec.ofNat 16 (field w 12 4 * 2 ^ 12) := by
        simp [packWord, BitVec.ofNat_add]
      _ = (w &&& 0x003F) + (w &&& 0x0700) + (w &&& 0xF000) := by
        rw [ofNat_field_shifted, ofNat_field_shifted, ofNat_field_shifted]; rfl
      _ = (w &&& 0x073F) + (w &&& 0xF000) := congrArg (· + _) (and_add_and_of_disjoint w (by decide))
      _ = w &&& 0xF73F := and_add_and_of_disjoint w (by decide)
  | 7 => exact packWord_one_field w 10

/-! ## Rejected and accepted words -/

/-- The words that a write to CHCFG1 to CHCFG7 rejects: a field out of range, or an ordering of LW, HW and quota that would not
hold (R62, R63). -/
def ChanCfg.rejects (g : ChanCfg) (n : Fin 8) (w : Word) : Prop :=
  let lo8 := (w.extractLsb' 0 8).toNat
  match n with
  | 1 => lo8 = 0 ∨ 128 < lo8 ∨ g.hw ≤ g.lw ∨ lo8 < g.hw
  | 2 => lo8 = 0 ∨ 128 < lo8 ∨ lo8 ≤ g.lw ∨ g.quota < lo8
  | 3 => 127 < lo8 ∨ g.hw ≤ lo8 ∨ g.quota < g.hw
  | 4 => (w.extractLsb' 0 12).toNat = 0 ∨ 2048 < (w.extractLsb' 0 12).toNat
  | 5 => (w.extractLsb' 8 4).toNat = 0
  | 6 => (w.extractLsb' 0 6).toNat ≤ 1 ∨ (w.extractLsb' 12 4).toNat = 0
  | 7 => 512 < (w.extractLsb' 0 10).toNat
  | _ => False

/-- The check passes exactly the words that are not rejected: a field whose whole width is its range needs no test. -/
theorem ChanCfg.wordOk_written_iff (g : ChanCfg) {n : Fin 8} (h : n ≠ 0) (w : Word) :
    (g.written n w).wordOk n = true ↔ ¬ g.rejects n w := by
  match n with
  | 0 => exact absurd rfl h
  | 1 | 2 | 3 | 4 | 5 | 6 | 7 =>
    simp only [ChanCfg.wordOk, ChanCfg.written, ChanCfg.rejects, field_eq_extractLsb', Bool.and_eq_true, decide_eq_true_eq]
    omega

/-! ## The write -/

/-- A channel after an accepted write to CHCFGn: its fields stored, and the QUOTA cause evaluated for a new HW or LW (R61, R65). -/
def Channel.configured (x : Channel) (n : Fin 8) (w : Word) : Channel :=
  let y := { x with cfg := x.cfg.written n w }
  if n = 2 ∨ n = 3 then y.quotaSettled else y

theorem exec_chcfgWrite (n : Fin 8) (w : Word) {s : State} (h : s.resetn = true) :
    exec (.chcfgWrite n w) s = .next (writeChcfg n w s) := congrArg _ (outOfReset_high _ h)

/-- A rejected write sets CFG_REJECT and nothing else (R62, R63, R178). -/
theorem writeChcfg_of_rejects {n : Fin 8} (hn : n ≠ 0) {w : Word} {s : State} (h : (s.chan s.chsel).cfg.rejects n w) :
    writeChcfg n w s = reject s := by
  have hok : ¬ ((s.chan s.chsel).cfg.written n w).wordOk n = true := mt (ChanCfg.wordOk_written_iff _ hn w).mp (not_not.mpr h)
  rw [writeChcfg, if_neg hn]
  exact if_neg hok

/-- An accepted write reconfigures the selected channel. -/
theorem writeChcfg_of_not_rejects {n : Fin 8} (hn : n ≠ 0) {w : Word} {s : State}
    (h : ¬ (s.chan s.chsel).cfg.rejects n w) :
    writeChcfg n w s = s.setChan s.chsel ((s.chan s.chsel).configured n w) := by
  have hok := (ChanCfg.wordOk_written_iff _ hn w).mpr h
  rw [writeChcfg, if_neg hn]
  refine (if_pos hok).trans ?_
  unfold Channel.configured
  dsimp only
  split <;> simp [evalQuota_eq, setCfg_eq]

theorem configured_cfg (x : Channel) (n : Fin 8) (w : Word) : (x.configured n w).cfg = x.cfg.written n w := by
  unfold Channel.configured
  dsimp only
  split
  · rw [quotaSettled_cfg]
  · rfl

/-- A write to CHCFGn leaves all of the channel but its configuration and its flow unit. -/
theorem configured_frame (x : Channel) (n : Fin 8) (w : Word) :
    { x.configured n w with cfg := x.cfg, fl := x.fl } = x := by
  unfold Channel.configured
  dsimp only
  split
  · have h := congrArg (fun y : Channel => { y with cfg := x.cfg, fl := x.fl })
      (quotaSettled_frame { x with cfg := x.cfg.written n w })
    exact h
  · rfl

/-- A word other than CHCFG2 and CHCFG3 leaves the flow unit. -/
theorem configured_fl_of_ne (x : Channel) {n : Fin 8} (h2 : n ≠ 2) (h3 : n ≠ 3) (w : Word) : (x.configured n w).fl = x.fl := by
  rw [Channel.configured, if_neg (not_or.mpr ⟨h2, h3⟩)]

/-- An evaluation of the QUOTA cause and of the local pause after it: the pause is kept, or the change is a transition. -/
theorem quotaSettled_fl (x : Channel) :
    let wanted := x.cfg.rx && x.cfg.fc && (quotaCause x || x.fl.pool || x.fl.host)
    x.quotaSettled.fl = if wanted = x.fl.asserted then { x.fl with quota := quotaCause x }
      else { x.fl with
        quota := quotaCause x, asserted := wanted, pauseOwed := wanted, resumeOwed := !wanted, refresh := 0 } :=
  settled_fl { x with fl := { x.fl with quota := quotaCause x } }

/-- Every word but CHCFG0 leaves the enables. -/
theorem ChanCfg.written_enables (g : ChanCfg) {n : Fin 8} (hn : n ≠ 0) (w : Word) :
    (g.written n w).rx = g.rx ∧ (g.written n w).fc = g.fc := by
  fin_cases n
  · exact absurd rfl hn
  all_goals exact ⟨rfl, rfl⟩

/-- A new HW or LW evaluates the QUOTA cause, and the local pause after it, with the enables and the other causes as they are. -/
theorem configured_fl (x : Channel) {n : Fin 8} (h : n = 2 ∨ n = 3) (w : Word) :
    let quota := quotaCause { x with cfg := (x.configured n w).cfg }
    let wanted := x.cfg.rx && x.cfg.fc && (quota || x.fl.pool || x.fl.host)
    (x.configured n w).fl = if wanted = x.fl.asserted then { x.fl with quota := quota }
      else { x.fl with quota := quota, asserted := wanted, pauseOwed := wanted, resumeOwed := !wanted, refresh := 0 } := by
  have hn : n ≠ 0 := by rcases h with rfl | rfl <;> decide
  obtain ⟨hrx, hfc⟩ := x.cfg.written_enables hn w
  rw [configured_cfg, Channel.configured, if_pos h, quotaSettled_fl]
  simp only [hrx, hfc]

/-- Settles O49: the check by `wordOk_written_iff`, then each part of an accepted write by its lemma above. -/
theorem chcfgWriteIsCheckedWhole : Obligations.ChcfgWriteIsCheckedWhole := by
  unfold Obligations.ChcfgWriteIsCheckedWhole
  intro n w s hs hn g lo8 bad shown
  rw [exec_chcfgWrite n w hs]
  refine ⟨fun hbad => ?rejected, fun hgood => ?stored⟩
  case rejected => rw [writeChcfg_of_rejects hn hbad]; rfl
  case stored =>
    have hwrite := writeChcfg_of_not_rejects hn hgood
    have hchan : (writeChcfg n w s).chan s.chsel = (s.chan s.chsel).configured n w := by rw [hwrite, chan_setChan_same]
    have hread : ∀ m : Fin 8, readRegister (writeChcfg n w s) (BitVec.ofNat 6 (0x18 + m.val)) = (g.written n w).word m := by
      intro m
      rw [readRegister_chcfg (by rw [hwrite]; exact hs), hwrite, setChan_chsel, chan_setChan_same, configured_cfg]
    refine ⟨_, rfl, fun d hd => ?others, ?frame, ?same, fun m hm => ?words, ?cfg, ?channel, fun h2 h3 => ?quiet, fun h => ?flow⟩
    case others => rw [hwrite, chan_setChan_other s _ hd]
    case frame => rw [hwrite]; rfl
    case same => rw [hread, ChanCfg.word_written_same _ hn]; rfl
    case words => rw [hread, ChanCfg.word_written_other _ hm, readRegister_chcfg hs]
    case cfg =>
      rw [hchan, configured_cfg]
      unfold ChanCfg.written
      simp only [field_eq_extractLsb']
      fin_cases n
      · exact absurd rfl hn
      all_goals rfl
    case channel => rw [hchan]; exact configured_frame ..
    case quiet => rw [hchan]; exact configured_fl_of_ne _ h2 h3 w
    case flow => rw [hchan]; exact configured_fl _ h w

end Sys2Proof.Machine
end

section
/-! PROOFS. Bytes written to TXDATA (spec 05, R77, R78, R80): when a byte is accepted, where it is stored, and what the LAST
mark does to its message. -/

namespace Sys2Proof.Machine

open Sys2Proof

/-! ## The newest record -/

theorem TxUnit.hasOpen_append {u : TxUnit} {old : List TxRecord} {r : TxRecord} (h : u.records = old ++ [r]) :
    u.hasOpen = !r.closed := by
  simp [TxUnit.hasOpen, h]

theorem TxUnit.hasOpen_eq_false {u : TxUnit} (h : ∀ r, u.records.getLast? = some r → r.closed = true) :
    u.hasOpen = false := by
  unfold TxUnit.hasOpen
  split
  · next r hr => rw [h r hr, Bool.not_true]
  · rfl

theorem TxUnit.newestPoisoned_append {u : TxUnit} {old : List TxRecord} {r : TxRecord} (h : u.records = old ++ [r]) :
    u.newestPoisoned = r.poisoned := by
  simp [TxUnit.newestPoisoned, h]

theorem TxUnit.modNewest_append {u : TxUnit} {old : List TxRecord} {r : TxRecord} (h : u.records = old ++ [r])
    (f : TxRecord → TxRecord) : u.modNewest f = { u with records := old ++ [f r] } := by
  simp [TxUnit.modNewest, h]

theorem TxUnit.dropNewest_append {u : TxUnit} {old : List TxRecord} {r : TxRecord} (h : u.records = old ++ [r]) :
    u.dropNewest = { u with records := old } := by
  simp [TxUnit.dropNewest, h]

/-! ## Where an accepted byte is stored -/

/-- A byte is accepted where there is a free byte, and an open record or a free record (R78). -/
theorem TxUnit.accepts_iff (u : TxUnit) :
    u.accepts = true ↔ (u.records.map fun r => r.bytes.length).sum < 512 ∧ (u.hasOpen = true ∨ u.records.length < 8) := by
  have hfree : 1 ≤ u.freeBytes ↔ (u.records.map fun r => r.bytes.length).sum < 512 := Nat.sub_pos_iff_lt
  rw [TxUnit.accepts, Bool.and_eq_true, Bool.or_eq_true, decide_eq_true_eq, decide_eq_true_eq, hfree]

/-- A byte is stored at the end of the open record (R78). -/
theorem TxUnit.store_open {u : TxUnit} {old : List TxRecord} {r : TxRecord} (h : u.records = old ++ [r]) (hr : r.closed = false)
    (b : Byte) : u.store b = { u with records := old ++ [{ r with bytes := r.bytes ++ [b] }] } := by
  simp [TxUnit.store, TxUnit.hasOpen_append h, hr, TxUnit.modNewest_append h]

/-- Without an open record a byte starts one, which takes the poisoned flag the unit holds alone (R77, R78). -/
theorem TxUnit.store_new {u : TxUnit} (h : u.hasOpen = false) (b : Byte) :
    u.store b =
      { u with records := u.records ++ [{ bytes := [b], closed := false, poisoned := u.lone }], lone := false } := by
  simp [TxUnit.store, h]

/-! ## The LAST mark -/

/-- Two writes of one transmit unit: the second stays. -/
@[simp] theorem setTx_setTx (s : State) (c : Chan) (u v : TxUnit) : (s.setTx c u).setTx c v = s.setTx c v := by
  simp [setTx_eq]

/-- A drop is the new last drop reason and the raise of TX_DROPPED (R98). -/
theorem reportDrop_setTx (c : Chan) (d : DropReason) (s : State) (u : TxUnit) :
    reportDrop c d (s.setTx c u) = raiseDropped c d (s.setTx c { u with lastDrop := d }) := by
  simp [reportDrop]

/-- A sound message is closed (R80). -/
theorem closeWritten_sound (c : Chan) (s : State) {u : TxUnit} {old : List TxRecord} {m : TxRecord}
    (h : u.records = old ++ [m]) (hopen : m.closed = false) (hsound : m.poisoned = false) :
    closeWritten c (s.setTx c u) = s.setTx c { u with records := old ++ [{ m with closed := true }] } := by
  simp [closeWritten, TxUnit.hasOpen_append h, TxUnit.newestPoisoned_append h, TxUnit.modNewest_append h, hopen, hsound]

/-- A poisoned message is removed and reported with reason OVERFLOW (R80). -/
theorem closeWritten_poisoned (c : Chan) (s : State) {u : TxUnit} {old : List TxRecord} {m : TxRecord}
    (h : u.records = old ++ [m]) (hopen : m.closed = false) (hpoisoned : m.poisoned = true) :
    closeWritten c (s.setTx c u) =
      raiseDropped c .overflow (s.setTx c { u with records := old, lastDrop := .overflow }) := by
  simp [closeWritten, TxUnit.hasOpen_append h, TxUnit.newestPoisoned_append h, TxUnit.dropNewest_append h, hopen, hpoisoned,
    reportDrop_setTx]

/-- A raise of TX_DROPPED changes its flag and its detail, and nothing else of the event unit (R165). -/
theorem raiseDropped_droppedOnly (c : Chan) (d : DropReason) (s : State) : droppedOnly c d s (raiseDropped c d s) := by
  refine ⟨rfl, fun x _ => latched_set .., fun k => ?_⟩
  show (s.ev.dropDetail.set c d)[k.val] = _
  rw [Vector.getElem_set]
  simp only [Fin.val_inj, eq_comm (a := c)]
  rfl

/-! ## The write -/

theorem exec_txdata (c : Chan) (w : Word) {s : State} (h : s.resetn = true) :
    exec (.txdata c w) s = .next (writeTxdata c w s) := congrArg _ (outOfReset_high _ h)

theorem lowByte_eq_extractLsb' (w : Word) : lowByte w = w.extractLsb' 0 8 := BitVec.setWidth_eq_extractLsb' (by decide)

/-- An accepted byte, the low byte of the word, without the LAST mark (R78). -/
theorem writeTxdata_more {c : Chan} {w : Word} {s : State} (h : (s.chan c).tx.accepts = true) (hlast : w.getLsbD 8 = false) :
    writeTxdata c w s = s.setTx c ((s.chan c).tx.store (w.extractLsb' 0 8)) := by
  simp only [writeTxdata, wbit, h, hlast, lowByte_eq_extractLsb', if_true, Bool.false_eq_true, if_false]

/-- An accepted byte with the LAST mark: it is stored before the mark closes its message (R80). -/
theorem writeTxdata_last {c : Chan} {w : Word} {s : State} (h : (s.chan c).tx.accepts = true) (hlast : w.getLsbD 8 = true) :
    writeTxdata c w s = closeWritten c (s.setTx c ((s.chan c).tx.store (w.extractLsb' 0 8))) := by
  simp only [writeTxdata, wbit, h, hlast, lowByte_eq_extractLsb', if_true]

/-- What a stored byte leaves of s, where m is the message it belongs to, `old` the records before it and u the rest of the
transmit unit: nothing outside the unit and its drop event changes, and the LAST mark closes a sound message and removes
a poisoned one (R78, R80). -/
def messageWritten (c : Chan) (last : Bool) (u : TxUnit) (old : List TxRecord) (m : TxRecord) (s t : State) : Prop :=
  onlyChannel c s t ∧ { t with chans := s.chans, ev := s.ev } = s ∧ { t.chan c with tx := (s.chan c).tx } = s.chan c ∧
  (last = false → (t.chan c).tx = { u with records := old ++ [m] } ∧ t.ev = s.ev) ∧
  (last = true → m.poisoned = false →
    (t.chan c).tx = { u with records := old ++ [{ m with closed := true }] } ∧ t.ev = s.ev) ∧
  (last = true → m.poisoned = true →
    (t.chan c).tx = { u with records := old, lastDrop := .overflow } ∧ droppedOnly c .overflow s t)

/-- A change of one transmit unit and of the event unit leaves the rest of the state. -/
theorem setTx_withEv_frame (c : Chan) (u : TxUnit) (e : EventUnit) (s : State) :
    let t := { s.setTx c u with ev := e }
    onlyChannel c s t ∧ { t with chans := s.chans, ev := s.ev } = s ∧ { t.chan c with tx := (s.chan c).tx } = s.chan c := by
  intro t
  have hchan : ∀ d, t.chan d = (s.setTx c u).chan d := fun _ => rfl
  refine ⟨fun d hd => ?others, rfl, ?own⟩
  case others => rw [hchan, chan_setTx_other s u hd]
  case own => rw [hchan, chan_setTx_same]

/-- An accepted byte whose message m is open after the store: the LAST mark and the poisoned flag tell three cases apart. -/
theorem writeTxdata_messageWritten {c : Chan} {w : Word} {s : State} {u : TxUnit} {old : List TxRecord} {m : TxRecord}
    (haccepts : (s.chan c).tx.accepts = true)
    (hstore : (s.chan c).tx.store (w.extractLsb' 0 8) = { u with records := old ++ [m] }) (hopen : m.closed = false) :
    messageWritten c (w.getLsbD 8) u old m s (writeTxdata c w s) := by
  cases hlast : w.getLsbD 8 with
  | false =>
    rw [writeTxdata_more haccepts hlast, hstore]
    obtain ⟨honly, hrest, hown⟩ := setTx_withEv_frame c { u with records := old ++ [m] } s.ev s
    exact ⟨honly, hrest, hown, by simp, by simp, by simp⟩
  | true =>
    rw [writeTxdata_last haccepts hlast, hstore]
    cases hpoisoned : m.poisoned with
    | false =>
      rw [closeWritten_sound c s rfl hopen hpoisoned]
      obtain ⟨honly, hrest, hown⟩ := setTx_withEv_frame c { u with records := old ++ [{ m with closed := true }] } s.ev s
      exact ⟨honly, hrest, hown, by simp, by simp, by simp [hpoisoned]⟩
    | true =>
      rw [closeWritten_poisoned c s rfl hopen hpoisoned]
      obtain ⟨honly, hrest, hown⟩ :=
        setTx_withEv_frame c { u with records := old, lastDrop := .overflow } (raiseDropped c .overflow s).ev s
      exact ⟨honly, hrest, hown, by simp, by simp [hpoisoned], fun _ _ => ⟨by simp, raiseDropped_droppedOnly c .overflow s⟩⟩

/-- Settles O35: where the byte is stored by `TxUnit.store_open` and `TxUnit.store_new`, then what the LAST mark does. -/
theorem txdataByteAccepted : Obligations.TxdataByteAccepted := by
  unfold Obligations.TxdataByteAccepted
  intro c w s hs x b last hfree
  rw [exec_txdata c w hs]
  refine ⟨fun old r hrecords hr => ?openRecord, fun hclosed hroom => ?newRecord⟩
  case openRecord =>
    have hopen : x.tx.hasOpen = true := by rw [TxUnit.hasOpen_append hrecords, hr, Bool.not_false]
    have haccepts : x.tx.accepts = true := (TxUnit.accepts_iff x.tx).mpr ⟨hfree, .inl hopen⟩
    exact ⟨_, rfl, writeTxdata_messageWritten haccepts (TxUnit.store_open hrecords hr b) hr⟩
  case newRecord =>
    have haccepts : x.tx.accepts = true := (TxUnit.accepts_iff x.tx).mpr ⟨hfree, .inr hroom⟩
    have hstore := TxUnit.store_new (TxUnit.hasOpen_eq_false hclosed) b
    obtain ⟨honly, hrest, hown, hmore, hsound, hpoisoned⟩ :=
      writeTxdata_messageWritten (u := { x.tx with lone := false }) haccepts hstore rfl
    refine ⟨_, rfl, honly, hrest, hown, hmore, fun hlast hlone => ?sound, hpoisoned⟩
    obtain ⟨htx, hev⟩ := hsound hlast hlone
    exact ⟨htx.trans (by simp [b, hlone]), hev⟩

end Sys2Proof.Machine
end

section
/-! PROOFS. The read-out registers (spec 07, R132, R133): what a read of RXDATA returns by the three cases of R132, and which
words RXOFFSET takes. -/

namespace Sys2Proof.Machine

open Sys2Proof

/-! ## The word of a delivered byte -/

theorem flagNat_eq_ofBool (b : Bool) : flagNat b = (BitVec.ofBool b).toNat := by cases b <;> rfl

/-- The byte fills bits 7-0, the mark is bit 8, and the seven positions above hold no field. -/
theorem packWord_byte_mark (b : Byte) (last : Bool) :
    packWord [(0, b.toNat), (8, flagNat last)] = 0#7 ++ (BitVec.ofBool last ++ b) := by
  have hb : b.toNat < 2 ^ 8 := b.isLt
  have hlast : (BitVec.ofBool last).toNat < 2 ^ 1 := (BitVec.ofBool last).isLt
  apply BitVec.eq_of_toNat_eq
  rw [BitVec.toNat_append, BitVec.toNat_append, ← Nat.shiftLeft_add_eq_or_of_lt hb, flagNat_eq_ofBool]
  simp only [packWord, List.foldl, BitVec.toNat_ofNat, Nat.zero_mod, Nat.shiftLeft_eq, Nat.zero_mul, Nat.zero_or]
  omega

theorem packWord_byte_mark_fields (b : Byte) (last : Bool) :
    let v := packWord [(0, b.toNat), (8, flagNat last)]
    v.extractLsb' 0 8 = b ∧ v.getLsbD 8 = last ∧ v.extractLsb' 9 7 = 0 := by
  intro v
  have hv : v = 0#7 ++ (BitVec.ofBool last ++ b) := packWord_byte_mark b last
  rw [hv]
  refine ⟨?byte, ?mark, ?rest⟩
  case byte => rw [BitVec.extractLsb'_append_eq_of_add_le (by decide), BitVec.extractLsb'_append_eq_right]
  case mark =>
    have hlow : (BitVec.ofBool last ++ b).getLsbD 8 = last := by rw [BitVec.getLsbD_append]; simp
    exact BitVec.getLsbD_append.trans hlow
  case rest => exact BitVec.extractLsb'_append_eq_left

/-! ## A read of RXDATA -/

/-- The byte at offset o lies in the block at place o/32 of the chain (R132). -/
theorem messageByte_of_chain {s : State} {d : Descriptor} {o : Nat} {b : BlockNo}
    (h : (s.pool.chain d.first)[o / 32]? = some b) :
    s.messageByte d o = some (Memory.read s.pool.mem (32 * b.val + o % 32)) := by
  rw [State.messageByte, h]
  rfl

theorem exec_rxdataRead (s : State) : exec .rxdataRead s = execRxdataRead s := rfl

theorem exec_rxdataRead_empty {s : State} (hs : s.resetn = true) (h : s.ring.entries = []) :
    exec .rxdataRead s = .next (s.driveData 0x8000) := by
  rw [exec_rxdataRead, execRxdataRead, if_pos hs, h]

/-- Where a message is at the head, a read tells its end from the byte at the read offset. -/
theorem exec_rxdataRead_head {s : State} (hs : s.resetn = true) {d : Descriptor} {rest : List Descriptor}
    (h : s.ring.entries = d :: rest) :
    (s.ring.readOff = d.length → exec .rxdataRead s = .next (s.driveData 0x4000)) ∧
    (∀ b, s.ring.readOff ≠ d.length → s.messageByte d s.ring.readOff = some b →
      exec .rxdataRead s = .next ({ s with ring := { s.ring with readOff := s.ring.readOff + 1 } }.driveData
        (packWord [(0, b.toNat), (8, flagNat (s.ring.readOff + 1 = d.length))]))) := by
  rw [exec_rxdataRead, execRxdataRead, if_pos hs, h]
  refine ⟨fun hend => if_pos hend, fun b hmore hbyte => ?_⟩
  simp only [if_neg hmore, hbyte]

/-! ## A write to RXOFFSET -/

theorem exec_rxoffsetWrite (w : Word) {s : State} (h : s.resetn = true) :
    exec (.rxoffsetWrite w) s = .next (writeRxoffset w s) := congrArg _ (outOfReset_high _ h)

theorem writeRxoffset_empty (w : Word) {s : State} (h : s.ring.entries = []) : writeRxoffset w s = reject s := by
  rw [writeRxoffset, h]

theorem writeRxoffset_head (w : Word) {s : State} {d : Descriptor} {rest : List Descriptor} (h : s.ring.entries = d :: rest) :
    writeRxoffset w s = if d.length < w.toNat then reject s else { s with ring := { s.ring with readOff := w.toNat } } := by
  rw [writeRxoffset, h]

theorem readRegister_rxoffset {s : State} (h : s.resetn = true) : readRegister s 0x11 = BitVec.ofNat 16 s.ring.readOff := by
  have hvalue : s.registerValue 0x11 = packWord [(0, s.ring.readOff)] := rfl
  rw [readRegister, if_pos h, hvalue]
  simp [packWord]

/-- Settles O42: a read by the three cases of R132, its word by `packWord_byte_mark_fields`; a write by the check of R133. -/
theorem rxdataReadDeliversBytes : Obligations.RxdataReadDeliversBytes := by
  unfold Obligations.RxdataReadDeliversBytes
  refine ⟨fun s hs => ⟨exec_rxdataRead_empty hs, fun d rest hring => ?read⟩, fun w s hs => ?write⟩
  case read =>
    obtain ⟨hpastEnd, hdelivers⟩ := exec_rxdataRead_head hs hring
    refine ⟨hpastEnd, fun b hmore hblock => ⟨_, hdelivers _ hmore (messageByte_of_chain hblock), ?_⟩⟩
    obtain ⟨hbyte, hmark, hzero⟩ := packWord_byte_mark_fields
      (Memory.read s.pool.mem (32 * b.val + s.ring.readOff % 32)) (decide (s.ring.readOff + 1 = d.length))
    exact ⟨hbyte, hmark, hzero, rfl, rfl⟩
  case write =>
    rw [exec_rxoffsetWrite w hs]
    refine ⟨fun hempty => congrArg _ (writeRxoffset_empty w hempty), fun d rest hring => ?_⟩
    rw [writeRxoffset_head w hring]
    refine ⟨fun habove => congrArg _ (if_pos habove), fun hwithin => ⟨_, congrArg _ (if_neg (by omega)), rfl, ?_⟩⟩
    rw [readRegister_rxoffset (by exact hs), BitVec.ofNat_toNat, BitVec.setWidth_eq]

end Sys2Proof.Machine
end

section
/-! PROOFS. What every step is made of: moves of the channels, the pool and the ring, each of which keeps the laws of
configuration, transmit lists, flow control, ring, pool bytes and blocks. A step that is a row of such moves keeps what each of them
keeps. -/

namespace Sys2Proof.Machine

open Sys2Proof

/-! ## The moves -/

/-- The ranges of the timing unit's configuration (R16). -/
def Timing.inRange (t : Timing) : Prop := (1 ≤ t.limit ∧ t.limit ≤ 15) ∧ (2 ≤ t.refdiv ∧ t.refdiv ≤ 1023)

/-- One change of the channels, the pool or the ring after which their laws stand again, or a change of anything else. -/
inductive Move : State → State → Prop where
  /-- Channels, pool and ring stay, and the timing configuration stays in its ranges. -/
  | quiet {s t : State} (chans : t.chans = s.chans) (pool : t.pool = s.pool) (ring : t.ring = s.ring)
      (tim : s.tim.inRange → t.tim.inRange) : Move s t
  /-- Peer presence and the sticky flags of a channel (R73, R75). -/
  | aside (s : State) (c : Chan) (p : Peer) (k : Sticky) : Move s (s.setChan c { s.chan c with peer := p, sticky := k })
  /-- A transmit unit whose list keeps its bounds (R77). -/
  | transmit {s : State} {c : Chan} {u : TxUnit} (list : (s.chan c).tx.listLaw → u.listLaw) : Move s (s.setTx c u)
  /-- tx_enable (R66, R88). -/
  | txEnable (s : State) (c : Chan) (on : Bool) : Move s (s.setCfg c { (s.chan c).cfg with tx := on })
  /-- A flow unit, its causes and its local pause as they were (R147 to R154). -/
  | flow {s : State} {c : Chan} {u : FlowUnit} (quota : u.quota = (s.chan c).fl.quota) (pool : u.pool = (s.chan c).fl.pool)
      (host : u.host = (s.chan c).fl.host) (asserted : u.asserted = (s.chan c).fl.asserted)
      (pauseOwed : u.pauseOwed = true → (s.chan c).fl.pauseOwed = true ∨ (s.chan c).fl.asserted = true)
      (resumeOwed : u.resumeOwed = true → (s.chan c).fl.resumeOwed = true ∨ (s.chan c).fl.asserted = false) :
      Move s (s.setFl c u)
  /-- The HOST cause (R144). -/
  | hostCause (s : State) (c : Chan) (on : Bool) : Move s (setHostCause on c s)
  /-- FLUSH at a flow unit (R71). -/
  | clearFlow (s : State) (c : Chan) :
      Move s (evalQuota c (s.setFl c { (s.chan c).fl with host := false, held := false, holdCnt := 0 }))
  /-- An accepted write to CHCFG1 to CHCFG7 (R61 to R65). -/
  | configure {s : State} {c : Chan} {n : Fin 8} {w : Word} (word : n ≠ 0) (accepted : ¬ (s.chan c).cfg.rejects n w) :
      Move s (s.setChan c ((s.chan c).configured n w))
  /-- An accepted write to POOLCFG (R105). -/
  | poolcfg {s : State} {reserve hyst : Nat} (range : 1 ≤ hyst ∧ hyst ≤ 32) (sum : reserve + hyst ≤ 128) :
      Move s (evalPoolLow { s with pool := { s.pool with reserve := reserve, hyst := hyst } })
  /-- RINGCFG and the ready timer (R136, R137). -/
  | ringcfg {s : State} {threshold timeout timer : Nat}
      (range : (1 ≤ s.ring.threshold ∧ s.ring.threshold ≤ 32) ∧ s.ring.timeout ≤ 255 ∧ s.ring.timer ≤ 255 →
        (1 ≤ threshold ∧ threshold ≤ 32) ∧ timeout ≤ 255 ∧ timer ≤ 255) :
      Move s { s with ring := { s.ring with threshold := threshold, timeout := timeout, timer := timer } }
  /-- The read offset, within the head message (R132, R133). -/
  | readOffset {s : State} {d : Descriptor} {rest : List Descriptor} {o : Nat} (head : s.ring.entries = d :: rest)
      (within : s.ring.readOff ≤ d.length → o ≤ d.length) : Move s { s with ring := { s.ring with readOff := o } }
  /-- A message opens with a reservation (R110, R128). -/
  | opens {s : State} {c : Chan} (idle : (s.chan c).rx.st = .idle) (granted : reservationGranted s.ring = true) :
      Move s ((takeReservation s).setRx c { (s.chan c).rx with st := .opened })
  /-- A receive unit that keeps its chain and its reservation, if it has them. -/
  | receive {s : State} {c : Chan} {u : RxUnit} (reserves : u.reserves = (s.chan c).rx.reserves)
      (first : u.first = (s.chan c).rx.first) (cur : u.cur = (s.chan c).rx.cur) (fill : u.fill = (s.chan c).rx.fill)
      (len : u.len = (s.chan c).rx.len)
      (st : (s.chan c).rx.st = .opened ∨ (s.chan c).rx.st = .truncating → u.st = .opened ∨ u.st = .truncating) :
      Move s (s.setRx c u)
  /-- A receive unit without a reservation returns to IDLE (R108). -/
  | rests {s : State} {c : Chan} (none : (s.chan c).rx.reserves = false) : Move s (s.setRx c (s.chan c).rx.idled)
  /-- A message that holds a reservation ends with its descriptor (R115, R116). -/
  | closes {s : State} {c : Chan} {cause : MsgStatus} (held : (s.chan c).rx.reserves = true) (ends : cause ≠ .overrun) :
      Move s (closeMsg c cause s)
  /-- A message that holds a reservation is discarded (R117). -/
  | discards {s : State} {c : Chan} (held : (s.chan c).rx.reserves = true) : Move s (discardMsg c s)
  /-- An OPEN message is OVERRUN (R111). -/
  | overruns {s : State} {c : Chan} (opened : (s.chan c).rx.st = .opened) : Move s (overrunMsg c s)
  /-- The head of the free list is granted to an OPEN message without room (R102). -/
  | grants {s : State} {c : Chan} {b : BlockNo} {rest : List BlockNo} (opened : (s.chan c).rx.st = .opened)
      (free : s.pool.free = b :: rest) (full : (s.chan c).rx.cur = none ∨ 32 ≤ (s.chan c).rx.fill) :
      Move s (grant c b rest s)
  /-- A byte is stored in the current block (R111). -/
  | stores {s : State} {c : Chan} {k : BlockNo} {b : Byte} (cur : (s.chan c).rx.cur = some k)
      (room : (s.chan c).rx.fill < 32) : Move s (putByte c k b s)
  /-- The head leaves the ring (R134). -/
  | releases {s : State} {d : Descriptor} {rest : List Descriptor} (head : s.ring.entries = d :: rest) :
      Move s (releaseHead d rest s)
  /-- SOFT_RESET (R171). -/
  | softReset (s : State) : Move s s.softReset
  /-- RESETn goes low (R172). -/
  | hardReset (s : State) : Move s s.hardReset

/-- A row of moves. -/
def Moves : State → State → Prop := Relation.ReflTransGen Move

theorem Moves.refl {s : State} : Moves s s := Relation.ReflTransGen.refl

theorem Moves.trans {s t u : State} (h : Moves s t) (h' : Moves t u) : Moves s u := Relation.ReflTransGen.trans h h'

/-- What each move keeps, a row of them keeps. -/
theorem Moves.keep {P : State → Prop} (h : ∀ s t, Move s t → P s → P t) {s t : State} (hm : Moves s t) (hs : P s) : P t := by
  induction hm with
  | refl => exact hs
  | tail _ hmove ih => exact h _ _ hmove ih

theorem Move.one {s t : State} (h : Move s t) : Moves s t := Relation.ReflTransGen.single h

/-! ## What of a channel the moves of blocks leave -/

/-- A function of the channel that does not see the replacement. -/
theorem setChan_proj {α : Type} (g : Channel → α) {s : State} {c : Chan} {x : Channel} (h : g x = g (s.chan c)) (d : Chan) :
    g ((s.setChan c x).chan d) = g (s.chan d) := by
  by_cases hd : d = c
  · subst hd; rw [chan_setChan_same, h]
  · rw [chan_setChan_other s x hd]

theorem reserves_eq_holdsReservation (u : RxUnit) : u.reserves = u.st.holdsReservation := by
  cases h : u.st <;> simp [RxUnit.reserves, RxState.holdsReservation, h]

/-- From s to t every channel's configuration and its transmit unit stay. -/
structure SameRecords (s t : State) : Prop where
  cfg : ∀ d, (t.chan d).cfg = (s.chan d).cfg
  tx : ∀ d, (t.chan d).tx = (s.chan d).tx

theorem SameRecords.trans {s t u : State} (h : SameRecords s t) (h' : SameRecords t u) : SameRecords s u where
  cfg d := (h'.cfg d).trans (h.cfg d)
  tx d := (h'.tx d).trans (h.tx d)

theorem SameRecords.of_chan {s t : State} (h : ∀ d, t.chan d = s.chan d) : SameRecords s t where
  cfg d := by rw [h]
  tx d := by rw [h]

/-- A state with the same channels can take the place of the first. -/
theorem SameRecords.of_base {s t u : State} (h : SameRecords t u) (hc : ∀ d, t.chan d = s.chan d) : SameRecords s u :=
  (SameRecords.of_chan hc).trans h

theorem sameRecords_setChan {s : State} {c : Chan} {x : Channel} (hcfg : x.cfg = (s.chan c).cfg)
    (htx : x.tx = (s.chan c).tx) : SameRecords s (s.setChan c x) :=
  ⟨setChan_proj Channel.cfg hcfg, setChan_proj Channel.tx htx⟩

theorem sameRecords_setRx (s : State) (c : Chan) (u : RxUnit) : SameRecords s (s.setRx c u) :=
  sameRecords_setChan (x := { s.chan c with rx := u }) rfl rfl

theorem sameRecords_setFl (s : State) (c : Chan) (u : FlowUnit) : SameRecords s (s.setFl c u) :=
  sameRecords_setChan (x := { s.chan c with fl := u }) rfl rfl

theorem sameRecords_of_frame {s t : State}
    (h : ∀ d, { t.chan d with fl := (s.chan d).fl, held := (s.chan d).held, rx := (s.chan d).rx } = s.chan d) :
    SameRecords s t where
  cfg d := by have hcfg := congrArg Channel.cfg (h d); exact hcfg
  tx d := by have htx := congrArg Channel.tx (h d); exact htx

theorem sameRecords_freeChain (c : Chan) (first : Option BlockNo) (s : State) : SameRecords s (freeChain c first s) :=
  ⟨fun _ => freeChain_cfg .., fun _ => freeChain_tx ..⟩

theorem sameRecords_closeMsg (c : Chan) (cause : MsgStatus) (s : State) : SameRecords s (closeMsg c cause s) := by
  rw [closeMsg_joined]
  exact (sameRecords_setRx (s.withRing (s.ring.joined (endingOf cause c s))) c (s.chan c).rx.closed).of_base fun _ => rfl

theorem sameRecords_discardMsg (c : Chan) (s : State) : SameRecords s (discardMsg c s) := by
  unfold discardMsg
  split
  · exact (sameRecords_freeChain c (s.chan c).rx.first s).trans
      ((sameRecords_setRx (returnReservation (freeChain c (s.chan c).rx.first s)) c _).of_base fun _ => rfl)
  · split
    · exact sameRecords_setRx ..
    · exact .of_chan fun _ => rfl

theorem sameRecords_overrunMsg (c : Chan) (s : State) : SameRecords s (overrunMsg c s) :=
  (sameRecords_freeChain c _ s).trans (sameRecords_setRx ..)

theorem sameRecords_grant (c : Chan) (b : BlockNo) (rest : List BlockNo) (s : State) : SameRecords s (grant c b rest s) :=
  sameRecords_of_frame fun d => grant_chan_frame c d b rest s

theorem sameRecords_evalPoolLow (s : State) : SameRecords s (evalPoolLow s) where
  cfg d := by have hcfg := congrArg Channel.cfg (evalPoolLow_chan_frame s d); exact hcfg
  tx d := by have htx := congrArg Channel.tx (evalPoolLow_chan_frame s d); exact htx

theorem setHostCause_chan (on : Bool) (c d : Chan) (s : State) :
    (setHostCause on c s).chan d =
      if d = c then ({ s.chan c with fl := { (s.chan c).fl with host := on } } : Channel).settled else s.chan d := by
  rw [setHostCause_eq, chan_setChan]

theorem sameRecords_evalQuota (c : Chan) (s : State) : SameRecords s (evalQuota c s) := by
  rw [evalQuota_eq]
  have htx := congrArg Channel.tx (quotaSettled_frame (s.chan c))
  exact sameRecords_setChan (quotaSettled_cfg _) htx

/-- Every move but those of tx_enable, configuration, transmit lists and the resets leaves configurations and transmit units. -/
theorem Move.sameRecords_or {s t : State} (h : Move s t) : SameRecords s t ∨
    (∃ c u, ((s.chan c).tx.listLaw → u.listLaw) ∧ t = s.setTx c u) ∨
    (∃ c on, t = s.setCfg c { (s.chan c).cfg with tx := on }) ∨
    (∃ c n w, n ≠ 0 ∧ ¬ (s.chan c).cfg.rejects n w ∧ t = s.setChan c ((s.chan c).configured n w)) ∨
    t = s.softReset ∨ t = s.hardReset := by
  cases h with
  | quiet chans => exact .inl (.of_chan (chan_congr chans))
  | transmit list => exact .inr (.inl ⟨_, _, list, rfl⟩)
  | txEnable c on => exact .inr (.inr (.inl ⟨c, on, rfl⟩))
  | configure word accepted => exact .inr (.inr (.inr (.inl ⟨_, _, _, word, accepted, rfl⟩)))
  | softReset => exact .inr (.inr (.inr (.inr (.inl rfl))))
  | hardReset => exact .inr (.inr (.inr (.inr (.inr rfl))))
  | aside c p k => exact .inl (sameRecords_setChan (x := { s.chan c with peer := p, sticky := k }) rfl rfl)
  | flow => exact .inl (sameRecords_setFl ..)
  | hostCause c on =>
    rw [setHostCause_eq]
    exact .inl (sameRecords_setChan (settled_cfg _) (settled_tx _))
  | clearFlow c => exact .inl ((sameRecords_setFl ..).trans (sameRecords_evalQuota ..))
  | poolcfg => exact .inl ((sameRecords_evalPoolLow _).of_base fun _ => rfl)
  | ringcfg => exact .inl (.of_chan fun _ => rfl)
  | readOffset => exact .inl (.of_chan fun _ => rfl)
  | opens => exact .inl ((sameRecords_setRx (takeReservation s) ..).of_base fun _ => rfl)
  | receive => exact .inl (sameRecords_setRx ..)
  | rests => exact .inl (sameRecords_setRx ..)
  | closes => exact .inl (sameRecords_closeMsg ..)
  | discards => exact .inl (sameRecords_discardMsg ..)
  | overruns => exact .inl (sameRecords_overrunMsg ..)
  | grants => exact .inl (sameRecords_grant ..)
  | @stores c k b => exact .inl ((sameRecords_setRx (s.writePoolByte k _ b) ..).of_base fun _ => rfl)
  | @releases d rest => exact .inl ((sameRecords_freeChain d.chan d.first s).trans (.of_chan fun _ => rfl))

theorem softReset_chan (s : State) (c : Chan) : (s.softReset).chan c = { cfg := (s.chan c).cfg } := by
  show (s.chans.map Channel.softReset)[c.val] = { cfg := s.chans[c.val].cfg }
  simp [Channel.softReset]

theorem hardReset_chan (s : State) (c : Chan) : (s.hardReset).chan c = {} := by
  show (Vector.replicate 8 ({} : Channel))[c.val] = {}
  simp

/-! ## Transmit lists (R77) -/

theorem listLaw_empty : ({} : TxUnit).listLaw := by simp [TxUnit.listLaw]

theorem Move.keeps_txLaw {s t : State} (h : Move s t) (hs : s.txLaw) : t.txLaw := by
  rcases h.sameRecords_or with hsame | ⟨c, u, hlist, rfl⟩ | ⟨c, on, rfl⟩ | ⟨c, n, w, -, -, rfl⟩ | rfl | rfl
  · exact fun d => hsame.tx d ▸ hs d
  · intro d
    by_cases hd : d = c
    · subst hd; rw [chan_setTx_same]; exact hlist (hs d)
    · rw [chan_setTx_other s u hd]; exact hs d
  · intro d
    have htx := setChan_proj Channel.tx (s := s) (c := c)
      (x := { s.chan c with cfg := { (s.chan c).cfg with tx := on } }) rfl d
    rw [setCfg_eq, htx]
    exact hs d
  · intro d
    have htx := congrArg Channel.tx (configured_frame (s.chan c) n w)
    rw [setChan_proj Channel.tx (x := (s.chan c).configured n w) htx]
    exact hs d
  · intro d; rw [softReset_chan]; exact listLaw_empty
  · intro d; rw [hardReset_chan]; exact listLaw_empty

end Sys2Proof.Machine
end

section
/-! PROOFS. The moves keep the ranges of the configuration (spec 02, R16; 04, R59, R63; 06, R105; 07, R136), and the causes and the
local pause of every flow unit (06, R106; 08, R142 to R146). -/

namespace Sys2Proof.Machine

open Sys2Proof

/-! ## What the moves of blocks leave of the pool's configuration -/

theorem freeChain_reserve (c : Chan) (first : Option BlockNo) (s : State) :
    (freeChain c first s).pool.reserve = s.pool.reserve := by
  by_cases h : s.pool.chain first = []
  · rw [freeChain_nil c first s h]
  · rw [freeChain_eq c first s h, countsChanged_pool]; rfl

theorem freeChain_hyst (c : Chan) (first : Option BlockNo) (s : State) :
    (freeChain c first s).pool.hyst = s.pool.hyst := by
  by_cases h : s.pool.chain first = []
  · rw [freeChain_nil c first s h]
  · rw [freeChain_eq c first s h, countsChanged_pool]; rfl

theorem grant_config (c : Chan) (b : BlockNo) (rest : List BlockNo) (s : State) :
    (grant c b rest s).pool.reserve = s.pool.reserve ∧ (grant c b rest s).pool.hyst = s.pool.hyst := by
  rw [grant_eq, countsChanged_pool]; exact ⟨rfl, rfl⟩

theorem discardMsg_reserves {c : Chan} {s : State} (h : (s.chan c).rx.reserves = true) :
    discardMsg c s =
      ({ freeChain c (s.chan c).rx.first s with ring := { s.ring with reserved := s.ring.reserved - 1 } } : State).setChan c
        { (freeChain c (s.chan c).rx.first s).chan c with rx := (s.chan c).rx.idled } :=
  discardMsg_held c s (by rwa [← reserves_eq_holdsReservation])

/-! ## Ranges of the configuration -/

/-- The ranges that belong to no channel (R16, R105, R136). -/
def State.limitsLaw (s : State) : Prop :=
  s.tim.inRange ∧ ((1 ≤ s.pool.hyst ∧ s.pool.hyst ≤ 32) ∧ s.pool.reserve + s.pool.hyst ≤ 128) ∧
  ((1 ≤ s.ring.threshold ∧ s.ring.threshold ≤ 32) ∧ s.ring.timeout ≤ 255 ∧ s.ring.timer ≤ 255)

theorem configLaw_iff (s : State) : s.configLaw ↔ (∀ c, (s.chan c).cfg.inRange) ∧ s.limitsLaw := by
  simp only [State.configLaw, State.limitsLaw, Timing.inRange, and_assoc]

/-- An accepted CHCFG word leaves a configuration in its ranges (R62, R63). -/
theorem written_inRange {g : ChanCfg} {n : Fin 8} {w : Word} (hn : n ≠ 0) (h : ¬ g.rejects n w) (hg : g.inRange) :
    (g.written n w).inRange := by
  have h8 := (w.extractLsb' 0 8).isLt
  have h4 := (w.extractLsb' 8 4).isLt
  have h3 := (w.extractLsb' 8 3).isLt
  have h6 := (w.extractLsb' 0 6).isLt
  have hc := (w.extractLsb' 12 4).isLt
  match n with
  | 0 => exact absurd rfl hn
  | 1 | 2 | 3 | 4 | 5 | 6 | 7 =>
    simp only [ChanCfg.inRange, ChanCfg.written, ChanCfg.rejects, field_eq_extractLsb'] at *
    omega

theorem Move.keeps_limitsLaw {s t : State} (h : Move s t) (hs : s.limitsLaw) : t.limitsLaw := by
  obtain ⟨htim, hpool, hring⟩ := id hs
  cases h with
  | quiet _ pool ring tim => exact ⟨tim htim, pool ▸ hpool, ring ▸ hring⟩
  | aside | transmit | txEnable | flow | configure | opens | receive | rests | stores => exact hs
  | hostCause => rw [setHostCause_eq]; exact hs
  | clearFlow => rw [evalQuota_eq]; exact hs
  | poolcfg range sum => rw [evalPoolLow_eq]; split <;> exact ⟨htim, ⟨range, sum⟩, hring⟩
  | ringcfg range => exact ⟨htim, hpool, range hring⟩
  | readOffset => exact hs
  | @closes c cause =>
    rw [closeMsg_joined]
    refine ⟨htim, hpool, hring.1, hring.2.1, ?_⟩
    show (s.ring.joined _).timer ≤ 255
    unfold Ring.joined
    dsimp only
    split
    · exact hring.2.2
    · exact Nat.zero_le _
  | discards held =>
    rw [discardMsg_reserves held]
    simpa [State.limitsLaw, freeChain_reserve, freeChain_hyst] using hs
  | overruns => simpa [State.limitsLaw, overrunMsg, freeChain_reserve, freeChain_hyst] using hs
  | @grants c b rest =>
    obtain ⟨hreserve, hhyst⟩ := grant_config c b rest s
    have htim' := congrArg State.tim (grant_frame c b rest s)
    have hring' := congrArg State.ring (grant_frame c b rest s)
    dsimp only at htim' hring'
    rw [State.limitsLaw, htim', hring', hreserve, hhyst]
    exact hs
  | releases =>
    refine ⟨by simpa [releaseHead] using htim, by simpa [releaseHead, freeChain_reserve, freeChain_hyst] using hpool, ?_⟩
    simpa [releaseHead] using ⟨hring.1, hring.2.1⟩
  | softReset => exact ⟨htim, hpool, hring.1, hring.2.1, Nat.zero_le _⟩
  | hardReset => exact ⟨by simp [Timing.inRange, State.hardReset], by simp [State.hardReset], by simp [State.hardReset]⟩

theorem inRange_default : ({} : ChanCfg).inRange := by simp [ChanCfg.inRange]

theorem Move.keeps_cfgs {s t : State} (h : Move s t) (hs : ∀ c, (s.chan c).cfg.inRange) (d : Chan) :
    (t.chan d).cfg.inRange := by
  rcases h.sameRecords_or with hsame | ⟨c, u, -, rfl⟩ | ⟨c, on, rfl⟩ | ⟨c, n, w, hn, haccepted, rfl⟩ | rfl | rfl
  · exact hsame.cfg d ▸ hs d
  · have hcfg := setChan_proj Channel.cfg (s := s) (c := c) (x := { s.chan c with tx := u }) rfl d
    rw [setTx_eq, hcfg]
    exact hs d
  · by_cases hd : d = c
    · subst hd; rw [chan_setCfg_same]; exact hs d
    · rw [chan_setCfg_other s _ hd]; exact hs d
  · by_cases hd : d = c
    · subst hd; rw [chan_setChan_same, configured_cfg]; exact written_inRange hn haccepted (hs d)
    · rw [chan_setChan_other s _ hd]; exact hs d
  · rw [softReset_chan]; exact hs d
  · rw [hardReset_chan]; exact inRange_default

theorem Move.keeps_configLaw {s t : State} (h : Move s t) (hs : s.configLaw) : t.configLaw := by
  rw [configLaw_iff] at hs ⊢
  exact ⟨h.keeps_cfgs hs.1, h.keeps_limitsLaw hs.2⟩

/-! ## The local pause follows its causes (R145) -/

/-- The local pause is what the enables and the causes make it. -/
def Channel.pauseKept (x : Channel) : Prop := x.fl.asserted = pauseWanted x

theorem settled_pauseKept (x : Channel) : x.settled.pauseKept := by simp [Channel.pauseKept]

theorem pauseKept_congr {x y : Channel} (hrx : y.cfg.rx = x.cfg.rx) (hfc : y.cfg.fc = x.cfg.fc)
    (hasserted : y.fl.asserted = x.fl.asserted) (hquota : y.fl.quota = x.fl.quota) (hpool : y.fl.pool = x.fl.pool)
    (hhost : y.fl.host = x.fl.host) : y.pauseKept ↔ x.pauseKept := by
  simp [Channel.pauseKept, pauseWanted, hrx, hfc, hasserted, hquota, hpool, hhost]

theorem countsChanged_pauseKept {c : Chan} {s : State} (d : Chan) (h : d ≠ c → (s.chan d).pauseKept) :
    ((countsChanged c s).chan d).pauseKept := by
  rw [countsChanged_chan]
  dsimp only
  split
  · by_cases hd : d = c
    · rw [if_pos hd]; exact settled_pauseKept _
    · rw [if_neg hd]; exact h hd
  · exact settled_pauseKept _

theorem evalPoolLow_pauseKept {s : State} (d : Chan) (h : (s.chan d).pauseKept) : ((evalPoolLow s).chan d).pauseKept := by
  rw [evalPoolLow_chan]
  split
  · exact h
  · exact settled_pauseKept _

theorem freeChain_pauseKept {c : Chan} {first : Option BlockNo} {s : State} (d : Chan) (h : (s.chan d).pauseKept) :
    ((freeChain c first s).chan d).pauseKept := by
  by_cases hn : s.pool.chain first = []
  · rwa [freeChain_nil c first s hn]
  · rw [freeChain_eq c first s hn]
    refine countsChanged_pauseKept d fun hd => ?_
    rw [chan_setChan_other _ _ hd]
    exact h

/-- A channel replaced by one whose local pause follows. -/
theorem setChan_pauseKept {s : State} {c : Chan} {x : Channel} (hx : (s.chan c).pauseKept → x.pauseKept) {d : Chan}
    (h : (s.chan d).pauseKept) : ((s.setChan c x).chan d).pauseKept := by
  by_cases hd : d = c
  · subst hd; rw [chan_setChan_same]; exact hx h
  · rw [chan_setChan_other s x hd]; exact h

theorem setRx_pauseKept {s : State} {c : Chan} {u : RxUnit} {d : Chan} (h : (s.chan d).pauseKept) :
    ((s.setRx c u).chan d).pauseKept := setChan_pauseKept (x := { s.chan c with rx := u }) id h

theorem Move.keeps_pauseKept {s t : State} (h : Move s t) (d : Chan) (hd : (s.chan d).pauseKept) : (t.chan d).pauseKept := by
  cases h with
  | quiet chans => rwa [chan_congr chans]
  | aside c p k => exact setChan_pauseKept (x := { s.chan c with peer := p, sticky := k }) (fun h => h) hd
  | @transmit c u => exact setChan_pauseKept (x := { s.chan c with tx := u }) id hd
  | txEnable c on => exact setChan_pauseKept (x := { s.chan c with cfg := { (s.chan c).cfg with tx := on } }) id hd
  | @flow c u quota pool host asserted =>
    exact setChan_pauseKept (x := { s.chan c with fl := u })
      (fun h => (pauseKept_congr (x := s.chan c) (y := { s.chan c with fl := u }) rfl rfl asserted quota pool host).mpr h) hd
  | hostCause c on => rw [setHostCause_eq]; exact setChan_pauseKept (fun _ => settled_pauseKept _) hd
  | clearFlow c =>
    rw [evalQuota_eq, setFl_eq, setChan_setChan]
    exact setChan_pauseKept (fun _ => settled_pauseKept _) hd
  | @configure c n w word =>
    refine setChan_pauseKept (fun hc => ?_) hd
    unfold Channel.configured
    dsimp only
    split
    · exact settled_pauseKept _
    · obtain ⟨hrx, hfc⟩ := (s.chan c).cfg.written_enables word w
      exact (pauseKept_congr (y := { s.chan c with cfg := (s.chan c).cfg.written n w }) hrx hfc rfl rfl rfl rfl).mpr hc
  | poolcfg => exact evalPoolLow_pauseKept d hd
  | ringcfg => exact hd
  | readOffset => exact hd
  | opens => exact setRx_pauseKept (s := takeReservation s) hd
  | receive => exact setRx_pauseKept hd
  | rests => exact setRx_pauseKept hd
  | closes =>
    rw [closeMsg_joined]
    exact setRx_pauseKept (s := s.withRing _) (u := (s.chan _).rx.closed) hd
  | @discards c held =>
    unfold discardMsg
    rw [← reserves_eq_holdsReservation, if_pos held]
    exact setRx_pauseKept (s := returnReservation _) (freeChain_pauseKept d hd)
  | overruns => exact setRx_pauseKept (freeChain_pauseKept d hd)
  | grants =>
    rw [grant_eq]
    refine countsChanged_pauseKept d fun hne => ?_
    rw [chan_setChan_other _ _ hne]
    exact hd
  | @stores c k b => exact setRx_pauseKept (s := s.writePoolByte k (s.chan c).rx.fill b) hd
  | @releases e rest =>
    have hk : ((freeChain e.chan e.first s).chan d).pauseKept := freeChain_pauseKept d hd
    exact hk
  | softReset => rw [softReset_chan]; simp [Channel.pauseKept, pauseWanted]
  | hardReset => rw [hardReset_chan]; rfl

/-! ## The causes, and the flow words owed (R106, R142, R143, R146) -/

/-- The pool-low condition agrees with the free count (R106). -/
structure Pool.lowFits (p : Pool) : Prop where
  on : p.free.length ≤ p.reserve → p.low = true
  off : p.reserve + p.hyst ≤ p.free.length → p.low = false

/-- An owed flow word matches the local pause, and the POOL cause is the pool-low condition (R143, R146). -/
structure Channel.flowFits (low : Bool) (x : Channel) : Prop where
  pause : x.fl.pauseOwed = true → x.fl.asserted = true
  resume : x.fl.resumeOwed = true → x.fl.asserted = false
  pool : x.fl.pool = low

/-- The QUOTA cause agrees with the held count (R142). -/
structure Channel.quotaFits (x : Channel) : Prop where
  on : x.cfg.hw ≤ x.held → x.fl.quota = true
  off : x.held ≤ x.cfg.lw → x.fl.quota = false

/-- The causes of every flow unit, and what it owes. -/
structure State.causesLaw (s : State) : Prop where
  low : s.pool.lowFits
  flow : ∀ c, (s.chan c).flowFits s.pool.low
  quota : ∀ c, (s.chan c).quotaFits

theorem pauseLaw_iff (s : State) : s.pauseLaw ↔ s.causesLaw ∧ ∀ c, (s.chan c).pauseKept := by
  constructor
  · rintro ⟨hon, hoff, hchan⟩
    refine ⟨⟨⟨hon, hoff⟩, fun c => ?_, fun c => ?_⟩, fun c => (hchan c).1⟩
    · obtain ⟨-, hp, hr, hpool, -⟩ := hchan c; exact ⟨hp, hr, hpool⟩
    · obtain ⟨-, -, -, -, hq, hq'⟩ := hchan c; exact ⟨hq, hq'⟩
  · rintro ⟨⟨⟨hon, hoff⟩, hflow, hquota⟩, hkept⟩
    exact ⟨hon, hoff, fun c => ⟨hkept c, (hflow c).pause, (hflow c).resume, (hflow c).pool, (hquota c).on, (hquota c).off⟩⟩

theorem settled_flowFits {low : Bool} {x : Channel} (h : x.flowFits low) : x.settled.flowFits low := by
  obtain ⟨hp, hr⟩ := settled_owed x h.pause h.resume
  exact ⟨hp, hr, (settled_pool x).trans h.pool⟩

theorem settled_quotaFits {x : Channel} (h : x.quotaFits) : x.settled.quotaFits := by
  constructor
  · simpa using h.on
  · simpa using h.off

/-- After its evaluation the QUOTA cause agrees with the held count (R142). -/
theorem quotaSettled_quotaFits {x : Channel} (h : x.cfg.lw < x.cfg.hw) : x.quotaSettled.quotaFits := by
  constructor
  · intro hw
    simp only [quotaSettled_quota, quotaSettled_cfg, quotaSettled_held] at hw ⊢
    simp [quotaCause, hw]
  · intro hl
    simp only [quotaSettled_quota, quotaSettled_cfg, quotaSettled_held] at hl ⊢
    simp [quotaCause, hl, Nat.not_le.mpr (hl.trans_lt h)]

theorem quotaSettled_flowFits {low : Bool} {x : Channel} (h : x.flowFits low) : x.quotaSettled.flowFits low :=
  settled_flowFits (x := { x with fl := { x.fl with quota := quotaCause x } }) ⟨h.pause, h.resume, h.pool⟩

theorem poolSettled_flowFits {low : Bool} (now : Bool) {x : Channel} (h : x.flowFits low) :
    (x.poolSettled now).flowFits now :=
  settled_flowFits (x := { x with fl := { x.fl with pool := now } }) ⟨h.pause, h.resume, rfl⟩

theorem poolSettled_quotaFits (now : Bool) {x : Channel} (h : x.quotaFits) : (x.poolSettled now).quotaFits :=
  settled_quotaFits (x := { x with fl := { x.fl with pool := now } }) ⟨h.on, h.off⟩

/-- After its evaluation the pool-low condition agrees with the free count (R106). -/
theorem poolLow_lowFits {p : Pool} (h : 1 ≤ p.hyst) : ({ p with low := poolLow p } : Pool).lowFits := by
  constructor
  · intro hon
    dsimp only at hon ⊢
    simp [poolLow, hon]
  · intro hoff
    dsimp only at hoff ⊢
    have hnot : ¬ p.free.length ≤ p.reserve := by omega
    simp [poolLow, hoff, hnot]

theorem evalPoolLow_causesLaw {s : State} (hhyst : 1 ≤ s.pool.hyst) (hflow : ∀ c, (s.chan c).flowFits s.pool.low)
    (hquota : ∀ c, (s.chan c).quotaFits) : (evalPoolLow s).causesLaw where
  low := by rw [evalPoolLow_pool]; exact poolLow_lowFits hhyst
  flow c := by
    rw [evalPoolLow_pool, evalPoolLow_chan]
    split
    · next h => rw [h]; exact hflow c
    · exact poolSettled_flowFits _ (hflow c)
  quota c := by
    rw [evalPoolLow_chan]
    split
    · exact hquota c
    · exact poolSettled_quotaFits _ (hquota c)

/-- A change of held(c) and of the free count leaves all causes right, whatever held(c) was. -/
theorem countsChanged_causesLaw {c : Chan} {s : State} (hlevels : (s.chan c).cfg.lw < (s.chan c).cfg.hw)
    (hhyst : 1 ≤ s.pool.hyst) (hflow : ∀ d, (s.chan d).flowFits s.pool.low) (hquota : ∀ d, d ≠ c → (s.chan d).quotaFits) :
    (countsChanged c s).causesLaw := by
  rw [countsChanged, evalQuota_eq]
  refine evalPoolLow_causesLaw hhyst (fun d => ?_) (fun d => ?_)
  · by_cases hd : d = c
    · subst hd; rw [chan_setChan_same]; exact quotaSettled_flowFits (hflow d)
    · rw [chan_setChan_other s _ hd]; exact hflow d
  · by_cases hd : d = c
    · subst hd; rw [chan_setChan_same]; exact quotaSettled_quotaFits hlevels
    · rw [chan_setChan_other s _ hd]; exact hquota d hd

theorem freeChain_causesLaw {c : Chan} {first : Option BlockNo} {s : State}
    (hlevels : (s.chan c).cfg.lw < (s.chan c).cfg.hw) (hhyst : 1 ≤ s.pool.hyst) (h : s.causesLaw) :
    (freeChain c first s).causesLaw := by
  by_cases hn : s.pool.chain first = []
  · rwa [freeChain_nil c first s hn]
  · rw [freeChain_eq c first s hn]
    refine countsChanged_causesLaw (by rwa [chan_setChan_same]) hhyst (fun d => ?_) (fun d hd => ?_)
    · by_cases hd : d = c
      · subst hd; rw [chan_setChan_same]; exact ⟨(h.flow d).pause, (h.flow d).resume, (h.flow d).pool⟩
      · rw [chan_setChan_other _ _ hd]; exact h.flow d
    · rw [chan_setChan_other _ _ hd]; exact h.quota d

/-- A channel replaced by one whose causes fit. -/
theorem setChan_causesLaw {s : State} {c : Chan} {x : Channel} (h : s.causesLaw)
    (hflow : (s.chan c).flowFits s.pool.low → x.flowFits s.pool.low) (hquota : (s.chan c).quotaFits → x.quotaFits) :
    (s.setChan c x).causesLaw where
  low := h.low
  flow d := by
    by_cases hd : d = c
    · subst hd; rw [chan_setChan_same]; exact hflow (h.flow d)
    · rw [chan_setChan_other s x hd]; exact h.flow d
  quota d := by
    by_cases hd : d = c
    · subst hd; rw [chan_setChan_same]; exact hquota (h.quota d)
    · rw [chan_setChan_other s x hd]; exact h.quota d

theorem setRx_causesLaw {s : State} (c : Chan) (u : RxUnit) (h : s.causesLaw) : (s.setRx c u).causesLaw :=
  setChan_causesLaw (x := { s.chan c with rx := u }) h (fun h => ⟨h.pause, h.resume, h.pool⟩) fun h => ⟨h.on, h.off⟩

theorem causesLaw_congr {s t : State} (h : s.causesLaw) (hc : t.chans = s.chans) (hp : t.pool = s.pool) : t.causesLaw where
  low := hp ▸ h.low
  flow d := by rw [chan_congr hc, hp]; exact h.flow d
  quota d := by rw [chan_congr hc]; exact h.quota d

/-- The causes of a state without messages, held blocks and owed words. -/
theorem causesLaw_of_fresh {s : State} (hfree : s.pool.free.length = 128) (hlow : s.pool.low = false)
    (hreserve : s.pool.reserve < 128) (hchan : ∀ c, 1 ≤ (s.chan c).cfg.hw ∧ s.chan c = { cfg := (s.chan c).cfg }) :
    s.causesLaw where
  low := ⟨fun h => by omega, fun _ => hlow⟩
  flow c := by obtain ⟨-, h⟩ := hchan c; rw [h]; exact ⟨by simp, by simp, hlow.symm⟩
  quota c := by
    obtain ⟨hhw, h⟩ := hchan c
    rw [h]
    refine ⟨fun h0 => ?_, by simp⟩
    dsimp only at h0
    omega

theorem Move.keeps_causesLaw {s t : State} (h : Move s t) (hcfg : s.configLaw) (hs : s.causesLaw) : t.causesLaw := by
  obtain ⟨hranges, -, hpool, -⟩ := (configLaw_iff s).mp hcfg
  have hlevels : ∀ c, (s.chan c).cfg.lw < (s.chan c).cfg.hw := by
    intro c
    obtain ⟨-, -, -, -, -, -, -, -, -, -, h, -⟩ := hranges c
    exact h
  cases h with
  | quiet chans pool => exact causesLaw_congr hs chans pool
  | aside c p k => exact setChan_causesLaw hs (fun h => ⟨h.pause, h.resume, h.pool⟩) fun h => ⟨h.on, h.off⟩
  | @transmit c u =>
    exact setChan_causesLaw (x := { s.chan c with tx := u }) hs (fun h => ⟨h.pause, h.resume, h.pool⟩) fun h => ⟨h.on, h.off⟩
  | txEnable c on =>
    exact setChan_causesLaw (x := { s.chan c with cfg := { (s.chan c).cfg with tx := on } }) hs
      (fun h => ⟨h.pause, h.resume, h.pool⟩) fun h => ⟨h.on, h.off⟩
  | @flow c u quota pool host asserted pauseOwed resumeOwed =>
    refine setChan_causesLaw (x := { s.chan c with fl := u }) hs (fun h => ⟨fun hp => ?_, fun hr => ?_, pool.trans h.pool⟩)
      fun h => ⟨fun hw => quota.trans (h.on hw), fun hl => quota.trans (h.off hl)⟩
    · exact asserted.trans ((pauseOwed hp).elim h.pause id)
    · exact asserted.trans ((resumeOwed hr).elim h.resume id)
  | hostCause c on =>
    rw [setHostCause_eq]
    exact setChan_causesLaw hs
      (fun h => settled_flowFits (x := { s.chan c with fl := _ }) ⟨h.pause, h.resume, h.pool⟩)
      fun h => settled_quotaFits (x := { s.chan c with fl := _ }) ⟨h.on, h.off⟩
  | clearFlow c =>
    rw [evalQuota_eq, chan_setFl_same, setFl_eq, setChan_setChan]
    exact setChan_causesLaw hs (fun h => quotaSettled_flowFits ⟨h.pause, h.resume, h.pool⟩)
      fun _ => quotaSettled_quotaFits (hlevels c)
  | @configure c n w word accepted =>
    have hwritten : ((s.chan c).cfg.written n w).lw < ((s.chan c).cfg.written n w).hw := by
      obtain ⟨-, -, -, -, -, -, -, -, -, -, h, -⟩ := written_inRange word accepted (hranges c)
      exact h
    unfold Channel.configured
    dsimp only
    split
    · exact setChan_causesLaw hs (fun h => quotaSettled_flowFits ⟨h.pause, h.resume, h.pool⟩)
        fun _ => quotaSettled_quotaFits hwritten
    · next hn =>
      have hkept : ((s.chan c).cfg.written n w).hw = (s.chan c).cfg.hw ∧
          ((s.chan c).cfg.written n w).lw = (s.chan c).cfg.lw := by
        fin_cases n <;> simp_all [ChanCfg.written]
      exact setChan_causesLaw hs (fun h => ⟨h.pause, h.resume, h.pool⟩)
        fun h => ⟨fun hw => h.on (hkept.1 ▸ hw), fun hl => h.off (hkept.2 ▸ hl)⟩
  | poolcfg range => exact evalPoolLow_causesLaw range.1 hs.flow hs.quota
  | ringcfg => exact causesLaw_congr hs rfl rfl
  | readOffset => exact causesLaw_congr hs rfl rfl
  | opens => exact setRx_causesLaw (s := takeReservation s) _ _ (causesLaw_congr hs rfl rfl)
  | receive => exact setRx_causesLaw _ _ hs
  | rests => exact setRx_causesLaw _ _ hs
  | @closes c cause =>
    rw [closeMsg_joined]
    exact setRx_causesLaw (s := s.withRing _) c (s.chan c).rx.closed (causesLaw_congr hs rfl rfl)
  | @discards c held =>
    unfold discardMsg
    rw [← reserves_eq_holdsReservation, if_pos held]
    exact setRx_causesLaw _ _ (causesLaw_congr (freeChain_causesLaw (hlevels c) hpool.1.1 hs) rfl rfl)
  | @overruns c => exact setRx_causesLaw _ _ (freeChain_causesLaw (hlevels c) hpool.1.1 hs)
  | @grants c b rest =>
    rw [grant_eq]
    refine countsChanged_causesLaw (by rw [chan_setChan_same]; exact hlevels c) hpool.1.1 (fun d => ?_) (fun d hd => ?_)
    · by_cases hd : d = c
      · subst hd; rw [chan_setChan_same]; exact ⟨(hs.flow d).pause, (hs.flow d).resume, (hs.flow d).pool⟩
      · rw [chan_setChan_other _ _ hd]; exact hs.flow d
    · rw [chan_setChan_other _ _ hd]; exact hs.quota d
  | @stores c k b =>
    have hw : (s.writePoolByte k (s.chan c).rx.fill b).causesLaw := ⟨⟨hs.low.on, hs.low.off⟩, hs.flow, hs.quota⟩
    exact setRx_causesLaw _ _ hw
  | @releases d rest => exact causesLaw_congr (freeChain_causesLaw (hlevels d.chan) hpool.1.1 hs) rfl rfl
  | softReset =>
    refine causesLaw_of_fresh (by simp [State.softReset, Pool.softReset]) rfl ?_ fun c => ?_
    · show s.pool.reserve < 128
      omega
    · rw [softReset_chan]
      obtain ⟨-, hhw, -⟩ := hranges c
      exact ⟨hhw.1, rfl⟩
  | hardReset =>
    refine causesLaw_of_fresh (by simp [State.hardReset]) rfl (by simp [State.hardReset]) fun c => ?_
    rw [hardReset_chan]
    simp

end Sys2Proof.Machine
end

section
/-! PROOFS. The moves keep the reservation count and the places of the ring (spec 07, R128, R139), and the canonical form of the
pool's bytes. -/

namespace Sys2Proof.Machine

open Sys2Proof

/-! ## The reservation count -/

theorem ringLaw_iff (s : State) :
    s.ringLaw ↔ s.ring.reserved = s.reservations ∧ s.ring.entries.length + s.ring.reserved ≤ 32 := Iff.rfl

theorem reservations_congr {s t : State} (h : ∀ d, (t.chan d).rx.reserves = (s.chan d).rx.reserves) :
    t.reservations = s.reservations := by
  simp [State.reservations, h]

/-- A change of one receive unit moves the count by what that unit holds. -/
theorem reservations_change {c : Chan} {u : RxUnit} {s t : State}
    (hrx : ∀ d, (t.chan d).rx = if d = c then u else (s.chan d).rx) :
    t.reservations + (if (s.chan c).rx.reserves then 1 else 0) = s.reservations + (if u.reserves then 1 else 0) := by
  have hothers : (channels.erase c).countP (fun d => (t.chan d).rx.reserves) =
      (channels.erase c).countP fun d => (s.chan d).rx.reserves := by
    refine List.countP_congr fun d hd => ?_
    have hne : d ≠ c := fun e => not_mem_erase c (e ▸ hd)
    rw [hrx, if_neg hne]
  have hown : (t.chan c).rx = u := by rw [hrx, if_pos rfl]
  simp only [State.reservations, (channels_perm c).countP_eq, List.countP_cons, hothers, hown]
  omega

theorem setRx_rx (s : State) (c d : Chan) (u : RxUnit) :
    ((s.setRx c u).chan d).rx = if d = c then u else (s.chan d).rx := by
  rw [setRx_eq, chan_setChan, apply_ite Channel.rx]

/-- A channel replaced by one whose receive unit holds a reservation where the old one did. -/
theorem setChan_reservations {s : State} {c : Chan} {x : Channel} (h : x.rx.reserves = (s.chan c).rx.reserves) :
    (s.setChan c x).reservations = s.reservations :=
  reservations_congr (setChan_proj (fun y => y.rx.reserves) h)

/-- The law is read from the ring and the reservations alone. -/
theorem ringLaw_congr {s t : State} (h : s.ringLaw) (hring : t.ring = s.ring)
    (hres : ∀ d, (t.chan d).rx.reserves = (s.chan d).rx.reserves) : t.ringLaw := by
  rw [ringLaw_iff] at h ⊢
  rw [hring, reservations_congr hres]
  exact h

theorem setChan_ringLaw {s : State} {c : Chan} {x : Channel} (h : s.ringLaw) (hx : x.rx.reserves = (s.chan c).rx.reserves) :
    (s.setChan c x).ringLaw :=
  ringLaw_congr h rfl (setChan_proj (fun y => y.rx.reserves) hx)

theorem reserves_idled (u : RxUnit) : u.idled.reserves = false := by simp [RxUnit.reserves, RxUnit.idled]

theorem evalPoolLow_rx (s : State) (d : Chan) : ((evalPoolLow s).chan d).rx = (s.chan d).rx := by
  have h := congrArg Channel.rx (evalPoolLow_chan_frame s d); exact h

theorem evalPoolLow_ring (s : State) : (evalPoolLow s).ring = s.ring := by
  have h := congrArg State.ring (evalPoolLow_frame s); exact h

theorem grant_ring (c : Chan) (b : BlockNo) (rest : List BlockNo) (s : State) : (grant c b rest s).ring = s.ring := by
  have h := congrArg State.ring (grant_frame c b rest s); exact h

/-- The end of a message with a reservation puts its descriptor in place of the reservation (R129). -/
theorem closeMsg_ring {c : Chan} {cause : MsgStatus} {s : State} (hcause : cause ≠ .overrun)
    (hheld : (s.chan c).rx.reserves = true) : (closeMsg c cause s).ring = s.ring.joined [endedAs c cause s] := by
  rw [closeMsg_joined, setChan_ring, withRing_ring, endingOf_eq hcause, if_pos hheld]

theorem closeMsg_rx (c d : Chan) (cause : MsgStatus) (s : State) :
    ((closeMsg c cause s).chan d).rx = if d = c then (s.chan c).rx.closed else (s.chan d).rx := by
  rw [closeMsg_joined, chan_setChan, apply_ite Channel.rx]
  rfl

theorem discardMsg_rx {c : Chan} {s : State} (h : (s.chan c).rx.reserves = true) (d : Chan) :
    ((discardMsg c s).chan d).rx = if d = c then (s.chan c).rx.idled else (s.chan d).rx := by
  rw [discardMsg_reserves h, chan_setChan, apply_ite Channel.rx]
  exact congrArg (fun u => if d = c then (s.chan c).rx.idled else u) (freeChain_rx c d _ s)

theorem discardMsg_ring {c : Chan} {s : State} (h : (s.chan c).rx.reserves = true) :
    (discardMsg c s).ring = { s.ring with reserved := s.ring.reserved - 1 } := by
  rw [discardMsg_reserves h]; rfl

theorem overrunMsg_rx (c d : Chan) (s : State) :
    ((overrunMsg c s).chan d).rx = if d = c
      then { (s.chan c).rx with st := .overrun, first := none, cur := none, fill := 0, len := 0 } else (s.chan d).rx := by
  simp only [overrunMsg, setRx_rx, freeChain_rx]

theorem overrunMsg_ring (c : Chan) (s : State) : (overrunMsg c s).ring = s.ring := by
  rw [overrunMsg, setRx_ring, freeChain_ring]

theorem Move.keeps_ringLaw {s t : State} (h : Move s t) (hs : s.ringLaw) : t.ringLaw := by
  obtain ⟨hcount, hplaces⟩ := (ringLaw_iff s).mp hs
  cases h with
  | quiet chans _ ring => exact ringLaw_congr hs ring fun d => by rw [chan_congr chans]
  | aside | transmit | txEnable | flow => exact setChan_ringLaw hs rfl
  | hostCause c on =>
    rw [setHostCause_eq]
    exact setChan_ringLaw hs (congrArg RxUnit.reserves (settled_rx _))
  | clearFlow c =>
    rw [evalQuota_eq, chan_setFl_same, setFl_eq, setChan_setChan]
    exact setChan_ringLaw hs (congrArg RxUnit.reserves (quotaSettled_rx _))
  | @configure c n w =>
    have hrx := congrArg Channel.rx (configured_frame (s.chan c) n w)
    exact setChan_ringLaw hs (congrArg RxUnit.reserves hrx)
  | poolcfg => exact ringLaw_congr hs (evalPoolLow_ring _) fun d => by rw [evalPoolLow_rx]; rfl
  | ringcfg => exact hs
  | readOffset => exact hs
  | @opens c idle granted =>
    have hnone : (s.chan c).rx.reserves = false := by simp [RxUnit.reserves, idle]
    have hplace : s.ring.entries.length + s.ring.reserved < 32 := by simpa [reservationGranted] using granted
    have hone := reservations_change (s := s) (fun d => setRx_rx (takeReservation s) c d { (s.chan c).rx with st := .opened })
    have hopen : ({ (s.chan c).rx with st := .opened } : RxUnit).reserves = true := rfl
    rw [hnone, hopen] at hone
    rw [ringLaw_iff]
    constructor
    · show s.ring.reserved + 1 = _
      rw [hcount]
      exact hone.symm
    · show s.ring.entries.length + (s.ring.reserved + 1) ≤ 32
      omega
  | receive reserves => exact setChan_ringLaw hs reserves
  | rests none => exact setChan_ringLaw hs ((reserves_idled _).trans none.symm)
  | @closes c cause held ends =>
    have hone := reservations_change fun d => closeMsg_rx c d cause s
    rw [held, reserves_closed] at hone
    rw [ringLaw_iff, closeMsg_ring ends held]
    simp only [Ring.joined, List.length_append, List.length_singleton]
    simp at hone
    omega
  | @discards c held =>
    have hone := reservations_change fun d => discardMsg_rx held d
    rw [held, reserves_idled] at hone
    rw [ringLaw_iff, discardMsg_ring held]
    dsimp only
    simp at hone
    omega
  | @overruns c opened =>
    refine ringLaw_congr hs (overrunMsg_ring c s) fun d => ?_
    rw [overrunMsg_rx]
    split
    · next hd => subst hd; simp [RxUnit.reserves, opened]
    · rfl
  | @grants c b rest =>
    refine ringLaw_congr hs (grant_ring c b rest s) fun d => ?_
    rw [grant_rx]
    split
    · next hd => subst hd; rfl
    · rfl
  | stores => exact setChan_ringLaw hs rfl
  | @releases d rest head =>
    have hrx : ∀ e, ((releaseHead d rest s).chan e).rx.reserves = (s.chan e).rx.reserves := fun e =>
      congrArg RxUnit.reserves (freeChain_rx d.chan e d.first s)
    rw [ringLaw_iff, reservations_congr hrx]
    rw [head, List.length_cons] at hplaces
    simp only [releaseHead, freeChain_ring]
    omega
  | softReset =>
    have hnone : s.softReset.reservations = 0 := by simp [State.reservations, softReset_chan, RxUnit.reserves]
    exact (ringLaw_iff _).mpr ⟨hnone.symm, Nat.zero_le _⟩
  | hardReset =>
    have hnone : s.hardReset.reservations = 0 := by simp [State.reservations, hardReset_chan, RxUnit.reserves]
    exact (ringLaw_iff _).mpr ⟨hnone.symm, Nat.zero_le _⟩

/-! ## The bytes of the pool -/

theorem evalPoolLow_mem (s : State) : (evalPoolLow s).pool.mem = s.pool.mem := by rw [evalPoolLow_pool]

theorem discardMsg_mem (c : Chan) (s : State) : (discardMsg c s).pool.mem = s.pool.mem := by
  unfold discardMsg
  split
  · exact freeChain_mem c _ s
  · split <;> rfl

/-- Only a stored byte and a reset change the bytes of the pool. -/
theorem Move.keeps_memLaw {s t : State} (h : Move s t) (hs : s.memLaw) : t.memLaw := by
  unfold State.memLaw at *
  cases h with
  | quiet _ pool => rwa [pool]
  | aside | transmit | txEnable | flow | configure | ringcfg | readOffset | opens | receive | rests | softReset => exact hs
  | hostCause => rwa [setHostCause_eq]
  | clearFlow => rwa [evalQuota_eq]
  | poolcfg => rwa [evalPoolLow_mem]
  | closes => rwa [closeMsg_joined]
  | @discards c => rwa [discardMsg_mem]
  | @overruns c => rwa [overrunMsg, setRx_pool, freeChain_mem]
  | @grants c b rest =>
    obtain ⟨-, -, hmem⟩ := grant_pool c b rest s
    rwa [hmem]
  | @stores c k b => exact writePoolByte_wf k (s.chan c).rx.fill b hs
  | @releases d rest => exact (congrArg Memory.wf (freeChain_mem d.chan d.first s)).trans hs
  | hardReset => rfl

end Sys2Proof.Machine
end

section
/-! PROOFS. The moves keep the blocks: every block on the free list or in one chain, held(c) the blocks of channel c, every chain
fitting its message (spec 06, R100 to R103, R111; 07, R130), and the read offset within the head message (R132, R133). -/

namespace Sys2Proof.Machine

open Sys2Proof

/-! ## The law of the blocks by its parts -/

/-- The law of the blocks with its parts named. -/
structure BlocksFit (s : State) : Prop where
  nodup : s.allBlocks.Nodup
  count : s.allBlocks.length = 128
  held : ∀ c, (s.chan c).held = (s.openChain c).length + s.ringHeld c
  freeLinks : ∀ b ∈ s.pool.free, s.pool.links.get b = none
  fits : ∀ c, s.openFits c
  lengths : ∀ d ∈ s.ring.entries, d.length ≤ 32 * (s.pool.chain d.first).length

theorem poolLaw_iff (s : State) : s.poolLaw ↔ BlocksFit s :=
  ⟨fun ⟨a, b, c, d, e, f⟩ => ⟨a, b, c, d, e, f⟩, fun h => ⟨h.nodup, h.count, h.held, h.freeLinks, h.fits, h.lengths⟩⟩

/-- The open chain of a channel fits its unit, with the parts named. -/
structure RxUnit.Fits (u : RxUnit) (chain : List BlockNo) : Prop where
  absent : u.first = none ↔ u.cur = none
  last : chain.getLast? = u.cur
  empty : u.cur = none → u.len = 0
  fill : u.cur ≠ none → u.fill ≤ 32
  len : u.cur ≠ none → u.len + 32 = 32 * chain.length + u.fill
  st : u.cur ≠ none → u.st = .opened ∨ u.st = .truncating

theorem openFits_iff (s : State) (c : Chan) : s.openFits c ↔ (s.chan c).rx.Fits (s.openChain c) := by
  constructor
  · rintro ⟨ha, hl, he, hc⟩
    exact ⟨ha, hl, he, fun h => (hc h).1, fun h => (hc h).2.1, fun h => (hc h).2.2⟩
  · rintro ⟨ha, hl, he, hf, hn, hst⟩
    exact ⟨ha, hl, he, fun h => ⟨hf h, hn h, hst h⟩⟩

/-- A unit without a block fits the empty chain. -/
theorem fits_nil {u : RxUnit} (hfirst : u.first = none) (hcur : u.cur = none) (hlen : u.len = 0) : u.Fits [] :=
  ⟨by simp [hfirst, hcur], hcur.symm, fun _ => hlen, fun h => absurd hcur h, fun h => absurd hcur h, fun h => absurd hcur h⟩

/-- A unit in neither OPEN nor TRUNCATING has no block. -/
theorem RxUnit.Fits.without_block {u : RxUnit} {chain : List BlockNo} (h : u.Fits chain) (hst : u.st ≠ .opened)
    (hst' : u.st ≠ .truncating) : u.first = none ∧ u.cur = none ∧ u.len = 0 := by
  have hcur : u.cur = none := by
    by_contra hc
    exact (h.st hc).elim hst hst'
  exact ⟨h.absent.mpr hcur, hcur, h.empty hcur⟩

theorem RxUnit.Fits.without_reservation {u : RxUnit} {chain : List BlockNo} (h : u.Fits chain) (hr : u.reserves = false) :
    u.first = none ∧ u.cur = none ∧ u.len = 0 :=
  h.without_block (fun e => by simp [RxUnit.reserves, e] at hr) fun e => by simp [RxUnit.reserves, e] at hr

/-- What a message stores is within its chain (R111). -/
theorem RxUnit.Fits.len_le {u : RxUnit} {chain : List BlockNo} (h : u.Fits chain) : u.len ≤ 32 * chain.length := by
  by_cases hc : u.cur = none
  · rw [h.empty hc]; exact Nat.zero_le _
  · have hlen := h.len hc
    have hfill := h.fill hc
    omega

/-! ## Blocks beside a chain -/

/-- The chains of the ring. -/
def State.ringChains (s : State) : List BlockNo := s.ring.entries.flatMap fun d => s.pool.chain d.first

/-- All blocks but those of the open chain of channel c. -/
def State.blocksBeside (s : State) (c : Chan) : List BlockNo :=
  s.pool.free ++ (channels.erase c).flatMap s.openChain ++ s.ringChains

theorem allBlocks_eq (s : State) : s.allBlocks = s.pool.free ++ channels.flatMap s.openChain ++ s.ringChains := rfl

theorem allBlocks_perm (s : State) (c : Chan) : s.allBlocks.Perm (s.openChain c ++ s.blocksBeside c) := by
  have hchannels := (channels_perm c).flatMap_right s.openChain
  rw [List.flatMap_cons] at hchannels
  have h : s.allBlocks.Perm (s.pool.free ++ (s.openChain c ++ (channels.erase c).flatMap s.openChain) ++ s.ringChains) :=
    (hchannels.append_left _).append_right _
  refine h.trans ?_
  unfold State.blocksBeside
  rw [← List.append_assoc, ← List.append_assoc, ← List.append_assoc]
  exact (List.perm_append_comm.append_right _).append_right _

theorem BlocksFit.beside {s : State} (h : BlocksFit s) (c : Chan) {k : BlockNo} (hk : k ∈ s.blocksBeside c) :
    k ∉ s.openChain c := by
  have hnodup := (allBlocks_perm s c).nodup_iff.mp h.nodup
  exact fun hc => (List.nodup_append.mp hnodup).2.2 k hc k hk rfl

theorem mem_blocksBeside_free {s : State} {c : Chan} {k : BlockNo} (h : k ∈ s.pool.free) : k ∈ s.blocksBeside c :=
  List.mem_append_left _ (List.mem_append_left _ h)

theorem mem_blocksBeside_open {s : State} {c d : Chan} {k : BlockNo} (hd : d ≠ c) (h : k ∈ s.openChain d) :
    k ∈ s.blocksBeside c := by
  refine List.mem_append_left _ (List.mem_append_right _ (List.mem_flatMap.mpr ⟨d, ?_, h⟩))
  exact (List.mem_erase_of_ne hd).mpr (mem_channels d)

theorem mem_blocksBeside_ring {s : State} {c : Chan} {d : Descriptor} {k : BlockNo} (hd : d ∈ s.ring.entries)
    (h : k ∈ s.pool.chain d.first) : k ∈ s.blocksBeside c :=
  List.mem_append_right _ (List.mem_flatMap.mpr ⟨d, hd, h⟩)

/-- The open chain of channel c is nodup, and shorter than its bound while a block is free. -/
theorem BlocksFit.openChain_nodup {s : State} (h : BlocksFit s) (c : Chan) : (s.openChain c).Nodup :=
  (List.nodup_append.mp ((allBlocks_perm s c).nodup_iff.mp h.nodup)).1

theorem BlocksFit.openChain_lt {s : State} (h : BlocksFit s) (c : Chan) {b : BlockNo} (hb : b ∈ s.pool.free) :
    (s.openChain c).length < 128 := by
  have hlen := (allBlocks_perm s c).length_eq
  have hpos : 0 < (s.blocksBeside c).length := List.length_pos_of_mem (mem_blocksBeside_free hb)
  rw [h.count, List.length_append] at hlen
  omega

/-! ## The law where no chain moves -/

theorem openChain_congr {s t : State} (hlinks : t.pool.links = s.pool.links) {c : Chan}
    (hfirst : (t.chan c).rx.first = (s.chan c).rx.first) : t.openChain c = s.openChain c := by
  rw [State.openChain, State.openChain, hfirst, chain_congr hlinks]

/-- Free list, links, ring entries, held counts and first blocks stay: the rest is that every unit fits. -/
theorem BlocksFit.of_same {s t : State} (h : BlocksFit s) (hfree : t.pool.free = s.pool.free)
    (hlinks : t.pool.links = s.pool.links) (hentries : t.ring.entries = s.ring.entries)
    (hheld : ∀ c, (t.chan c).held = (s.chan c).held) (hfirst : ∀ c, (t.chan c).rx.first = (s.chan c).rx.first)
    (hfits : ∀ c, (t.chan c).rx.Fits (s.openChain c)) : BlocksFit t := by
  have hopen : t.openChain = s.openChain := funext fun c => openChain_congr hlinks (hfirst c)
  have hchain : t.pool.chain = s.pool.chain := funext fun b => chain_congr hlinks b
  have hall : t.allBlocks = s.allBlocks := by simp only [State.allBlocks, hfree, hopen, hchain, hentries]
  have hring : ∀ c, t.ringHeld c = s.ringHeld c := fun c => by simp only [State.ringHeld, hchain, hentries]
  constructor
  · rw [hall]; exact h.nodup
  · rw [hall]; exact h.count
  · intro c; rw [hheld, hopen, hring]; exact h.held c
  · rw [hfree, hlinks]; exact h.freeLinks
  · intro c; rw [openFits_iff, hopen]; exact hfits c
  · rw [hentries, hchain]; exact h.lengths

/-- A change that leaves every receive unit and every held count. -/
theorem BlocksFit.of_units {s t : State} (h : BlocksFit s) (hfree : t.pool.free = s.pool.free)
    (hlinks : t.pool.links = s.pool.links) (hentries : t.ring.entries = s.ring.entries)
    (hchan : ∀ c, (t.chan c).rx = (s.chan c).rx ∧ (t.chan c).held = (s.chan c).held) : BlocksFit t :=
  h.of_same hfree hlinks hentries (fun c => (hchan c).2) (fun c => by rw [(hchan c).1])
    fun c => by rw [(hchan c).1]; exact (openFits_iff s c).mp (h.fits c)

theorem BlocksFit.setChan {s : State} (h : BlocksFit s) {c : Chan} {x : Channel} (hrx : x.rx = (s.chan c).rx)
    (hheld : x.held = (s.chan c).held) : BlocksFit (s.setChan c x) :=
  h.of_units rfl rfl rfl fun d => ⟨setChan_proj Channel.rx hrx d, setChan_proj Channel.held hheld d⟩

/-- A receive unit replaced by one with the same first block that fits its chain. -/
theorem BlocksFit.setRx {s : State} (h : BlocksFit s) {c : Chan} {u : RxUnit} (hfirst : u.first = (s.chan c).rx.first)
    (hfits : u.Fits (s.openChain c)) : BlocksFit (s.setRx c u) := by
  refine h.of_same rfl rfl rfl (fun d => ?_) (fun d => ?_) (fun d => ?_)
  · exact setChan_proj (x := { s.chan c with rx := u }) Channel.held rfl d
  · exact setChan_proj (x := { s.chan c with rx := u }) (fun y => y.rx.first) hfirst d
  · rw [setRx_rx]
    split
    · next hd => subst hd; exact hfits
    · exact (openFits_iff s d).mp (h.fits d)

theorem setRx_held (s : State) (c d : Chan) (u : RxUnit) : ((s.setRx c u).chan d).held = (s.chan d).held :=
  setChan_proj (x := { s.chan c with rx := u }) Channel.held rfl d

theorem discardMsg_held_count {s : State} {c : Chan} (h : (s.chan c).rx.reserves = true) (d : Chan) :
    ((discardMsg c s).chan d).held =
      if d = c then (s.chan c).held - (s.openChain c).length else (s.chan d).held := by
  unfold discardMsg
  rw [← reserves_eq_holdsReservation, if_pos h]
  exact (setRx_held ..).trans (freeChain_held c d _ s)

theorem closeMsg_held (c d : Chan) (cause : MsgStatus) (s : State) :
    ((closeMsg c cause s).chan d).held = (s.chan d).held := by
  rw [closeMsg_joined]
  exact setRx_held (s.withRing (s.ring.joined (endingOf cause c s))) c d (s.chan c).rx.closed

/-! ## A chain freed (R103) -/

/-- Where the links of freed blocks alone are cleared, a chain without such a block stands. -/
theorem chain_of_cleared {p q : Pool} {freed : List BlockNo}
    (hlinks : ∀ k, q.links.get k = if k ∈ freed then none else p.links.get k) {first : Option BlockNo}
    (h : ∀ k ∈ p.chain first, k ∉ freed) : q.chain first = p.chain first :=
  chainFrom_agree 128 first fun k hk => by rw [hlinks, if_neg (h k hk)]

theorem ringHeld_congr {s t : State} (hentries : t.ring.entries = s.ring.entries)
    (hchain : ∀ d ∈ s.ring.entries, t.pool.chain d.first = s.pool.chain d.first) (c : Chan) : t.ringHeld c = s.ringHeld c := by
  simp only [State.ringHeld, hentries]
  congr 1
  refine List.map_congr_left fun d hd => ?_
  rw [hchain d (List.mem_filter.mp hd).1]

theorem ringChains_congr {s t : State} (hentries : t.ring.entries = s.ring.entries)
    (hchain : ∀ d ∈ s.ring.entries, t.pool.chain d.first = s.pool.chain d.first) : t.ringChains = s.ringChains := by
  rw [State.ringChains, State.ringChains, hentries]
  exact List.flatMap_congr hchain

theorem others_congr {s t : State} {c : Chan} (h : ∀ d, d ≠ c → t.openChain d = s.openChain d) :
    (channels.erase c).flatMap t.openChain = (channels.erase c).flatMap s.openChain :=
  List.flatMap_congr fun d hd => h d fun e => not_mem_erase c (e ▸ hd)

/-- The open chain of channel c is freed, and its unit has no block any more. -/
theorem BlocksFit.frees {s t : State} (h : BlocksFit s) {c : Chan} (hfree : t.pool.free = s.pool.free ++ s.openChain c)
    (hlinks : ∀ k, t.pool.links.get k = if k ∈ s.openChain c then none else s.pool.links.get k)
    (hentries : t.ring.entries = s.ring.entries)
    (hheld : ∀ d, (t.chan d).held = if d = c then (s.chan c).held - (s.openChain c).length else (s.chan d).held)
    (hrx : ∀ d, d ≠ c → (t.chan d).rx = (s.chan d).rx) (hnone : (t.chan c).rx.Fits []) (hfirst : (t.chan c).rx.first = none) :
    BlocksFit t := by
  have hring : ∀ d ∈ s.ring.entries, t.pool.chain d.first = s.pool.chain d.first := fun d hd =>
    chain_of_cleared hlinks fun k hk => h.beside c (mem_blocksBeside_ring hd hk)
  have hother : ∀ d, d ≠ c → t.openChain d = s.openChain d := by
    intro d hd
    rw [State.openChain, hrx d hd]
    exact chain_of_cleared hlinks fun k hk => h.beside c (mem_blocksBeside_open hd hk)
  have hown : t.openChain c = [] := by rw [State.openChain, hfirst, chain_none]
  have hperm : t.allBlocks.Perm s.allBlocks := by
    refine (allBlocks_perm t c).trans (.trans ?_ (allBlocks_perm s c).symm)
    rw [hown, List.nil_append, State.blocksBeside, State.blocksBeside, hfree, others_congr hother, ringChains_congr hentries hring]
    rw [← List.append_assoc, ← List.append_assoc]
    exact (List.perm_append_comm.append_right _).append_right _
  constructor
  · exact hperm.nodup_iff.mpr h.nodup
  · exact hperm.length_eq.trans h.count
  · intro d
    rw [hheld, ringHeld_congr hentries hring]
    split
    · next hd =>
      subst hd
      rw [hown, h.held]
      simp
    · next hd => rw [hother d hd]; exact h.held d
  · intro b hb
    rw [hlinks]
    split
    · rfl
    · next hn =>
      rw [hfree] at hb
      exact h.freeLinks b ((List.mem_append.mp hb).resolve_right hn)
  · intro d
    rw [openFits_iff]
    by_cases hd : d = c
    · subst hd; rw [hown]; exact hnone
    · rw [hother d hd, hrx d hd]; exact (openFits_iff s d).mp (h.fits d)
  · intro d hd
    rw [hentries] at hd
    rw [hring d hd]
    exact h.lengths d hd

theorem discardMsg_blocksFit {s : State} {c : Chan} (h : BlocksFit s) (hr : (s.chan c).rx.reserves = true) :
    BlocksFit (discardMsg c s) := by
  have hown := discardMsg_rx hr c
  rw [if_pos rfl] at hown
  refine h.frees (c := c) ?_ ?_ ?_ (fun d => ?_) (fun d hd => ?_) ?_ ?_
  · rw [discardMsg_reserves hr]; exact freeChain_free c _ s
  · rw [discardMsg_reserves hr]; exact freeChain_links c _ s
  · rw [discardMsg_ring hr]
  · exact discardMsg_held_count hr d
  · rw [discardMsg_rx hr, if_neg hd]
  · rw [hown]; exact fits_nil rfl rfl rfl
  · rw [hown]; rfl

theorem overrunMsg_blocksFit {s : State} (h : BlocksFit s) (c : Chan) : BlocksFit (overrunMsg c s) := by
  have hown := overrunMsg_rx c c s
  rw [if_pos rfl] at hown
  refine h.frees (c := c) ?_ ?_ ?_ (fun d => ?_) (fun d hd => ?_) ?_ ?_
  · exact freeChain_free c _ s
  · exact freeChain_links c _ s
  · rw [overrunMsg_ring]
  · exact (setRx_held ..).trans (freeChain_held c d _ s)
  · rw [overrunMsg_rx, if_neg hd]
  · rw [hown]; exact fits_nil rfl rfl rfl
  · rw [hown]

/-! ## The head released (R134) -/

/-- All blocks but those of the chain of descriptor d at the head of the ring. -/
def State.blocksBehind (s : State) (rest : List Descriptor) : List BlockNo :=
  s.pool.free ++ channels.flatMap s.openChain ++ rest.flatMap fun d => s.pool.chain d.first

theorem allBlocks_head {s : State} {d : Descriptor} {rest : List Descriptor} (hhead : s.ring.entries = d :: rest) :
    s.allBlocks.Perm (s.pool.chain d.first ++ s.blocksBehind rest) := by
  rw [State.allBlocks, hhead, List.flatMap_cons, State.blocksBehind, ← List.append_assoc, ← List.append_assoc]
  exact (List.perm_append_comm.append_right _)

theorem releaseHead_blocksFit {s : State} (h : BlocksFit s) {d : Descriptor} {rest : List Descriptor}
    (hhead : s.ring.entries = d :: rest) : BlocksFit (releaseHead d rest s) := by
  have hnodup := (allBlocks_head hhead).nodup_iff.mp h.nodup
  have hbehind : ∀ k ∈ s.blocksBehind rest, k ∉ s.pool.chain d.first :=
    fun k hk hd => (List.nodup_append.mp hnodup).2.2 k hd k hk rfl
  have hfree : (releaseHead d rest s).pool.free = s.pool.free ++ s.pool.chain d.first := freeChain_free d.chan d.first s
  have hlinks : ∀ k, (releaseHead d rest s).pool.links.get k = if k ∈ s.pool.chain d.first then none else s.pool.links.get k :=
    freeChain_links d.chan d.first s
  have hrx : ∀ c, ((releaseHead d rest s).chan c).rx = (s.chan c).rx := fun c => freeChain_rx d.chan c d.first s
  have hheld : ∀ c, ((releaseHead d rest s).chan c).held =
      if c = d.chan then (s.chan d.chan).held - (s.pool.chain d.first).length else (s.chan c).held :=
    fun c => freeChain_held d.chan c d.first s
  have hentries : (releaseHead d rest s).ring.entries = rest := rfl
  generalize releaseHead d rest s = t at *
  have hring : ∀ e ∈ rest, t.pool.chain e.first = s.pool.chain e.first := fun e he =>
    chain_of_cleared hlinks fun k hk => hbehind k (List.mem_append_right _ (List.mem_flatMap.mpr ⟨e, he, hk⟩))
  have hopen : ∀ c, t.openChain c = s.openChain c := by
    intro c
    rw [State.openChain, hrx]
    exact chain_of_cleared hlinks fun k hk => hbehind k
      (List.mem_append_left _ (List.mem_append_right _ (List.mem_flatMap.mpr ⟨c, mem_channels c, hk⟩)))
  have hringHeld : ∀ c, t.ringHeld c + (if c = d.chan then (s.pool.chain d.first).length else 0) = s.ringHeld c := by
    intro c
    have hmap : ∀ l : List Descriptor, (∀ e ∈ l, t.pool.chain e.first = s.pool.chain e.first) →
        (l.map fun e => (t.pool.chain e.first).length) = l.map fun e => (s.pool.chain e.first).length :=
      fun l hl => List.map_congr_left fun e he => by rw [hl e he]
    rw [State.ringHeld, State.ringHeld, hentries, hhead, hmap _ fun e he => hring e (List.mem_filter.mp he).1]
    by_cases hc : c = d.chan
    · simp [hc, Nat.add_comm]
    · simp [hc, Ne.symm hc]
  have hperm : t.allBlocks.Perm s.allBlocks := by
    refine List.Perm.trans ?_ (allBlocks_head hhead).symm
    rw [State.allBlocks, hfree, hentries, List.flatMap_congr hring, List.flatMap_congr fun c _ => hopen c, State.blocksBehind,
      ← List.append_assoc, ← List.append_assoc]
    exact (List.perm_append_comm.append_right _).append_right _
  constructor
  · exact hperm.nodup_iff.mpr h.nodup
  · exact hperm.length_eq.trans h.count
  · intro c
    have hs := h.held c
    have hr := hringHeld c
    rw [hheld, hopen]
    split
    · next hc => subst hc; rw [if_pos rfl] at hr; omega
    · next hc => rw [if_neg hc] at hr; omega
  · intro b hb
    rw [hlinks]
    split
    · rfl
    · next hn =>
      rw [hfree] at hb
      exact h.freeLinks b ((List.mem_append.mp hb).resolve_right hn)
  · intro c
    rw [openFits_iff, hopen, hrx]
    exact (openFits_iff s c).mp (h.fits c)
  · intro e he
    rw [hentries] at he
    rw [hring e he]
    exact h.lengths e (by rw [hhead]; exact List.mem_cons_of_mem _ he)

/-! ## A message ended (R116, R129) -/

theorem closeMsg_blocksFit {s : State} (h : BlocksFit s) {c : Chan} {cause : MsgStatus} (hcause : cause ≠ .overrun)
    (hr : (s.chan c).rx.reserves = true) : BlocksFit (closeMsg c cause s) := by
  have hpool : (closeMsg c cause s).pool = s.pool := by rw [closeMsg_joined]; rfl
  have hentries : (closeMsg c cause s).ring.entries = s.ring.entries ++ [endedAs c cause s] := by
    rw [closeMsg_ring hcause hr]; rfl
  have hheld := fun d => closeMsg_held c d cause s
  have hrx := fun d => closeMsg_rx c d cause s
  have hidle : (s.chan c).rx.closed = { (s.chan c).rx.idled with seq := (s.chan c).rx.seq + 1 } := by
    rw [RxUnit.closed, ← reserves_eq_holdsReservation, if_pos hr]
  have hfit := (openFits_iff s c).mp (h.fits c)
  have hended : s.pool.chain (endedAs c cause s).first = s.openChain c := by
    unfold endedAs State.openChain
    dsimp only
    split
    · next hst => rw [(hfit.without_block (by simp [hst]) (by simp [hst])).1]
    · rfl
  have hlength : (endedAs c cause s).length ≤ 32 * (s.openChain c).length := by
    unfold endedAs
    dsimp only
    split
    · exact Nat.zero_le _
    · exact hfit.len_le
  generalize closeMsg c cause s = t at *
  have hchain : t.pool.chain = s.pool.chain := by rw [hpool]
  have hown : t.openChain c = [] := by rw [State.openChain, hrx, if_pos rfl, hidle]; rfl
  have hother : ∀ d, d ≠ c → t.openChain d = s.openChain d := fun d hd =>
    openChain_congr (by rw [hpool]) (by rw [hrx, if_neg hd])
  have hperm : t.allBlocks.Perm s.allBlocks := by
    refine (allBlocks_perm t c).trans (.trans ?_ (allBlocks_perm s c).symm)
    rw [hown, List.nil_append, State.blocksBeside, State.blocksBeside, others_congr hother, hpool, State.ringChains, hentries,
      hchain, List.flatMap_append, List.flatMap_singleton, hended, ← List.append_assoc]
    exact List.perm_append_comm
  constructor
  · exact hperm.nodup_iff.mpr h.nodup
  · exact hperm.length_eq.trans h.count
  · intro d
    rw [hheld, State.ringHeld, hentries, hchain, List.filter_append, List.map_append, List.sum_append, h.held]
    by_cases hd : d = c
    · subst hd
      have hsame : (endedAs d cause s).chan = d := rfl
      simp only [hown, List.length_nil, List.filter_singleton, hsame, decide_true, cond_true, List.map_cons, List.map_nil,
        List.sum_singleton, hended, State.ringHeld]
      omega
    · have hdiff : (endedAs c cause s).chan ≠ d := Ne.symm hd
      simp only [hother d hd, List.filter_singleton, hdiff, decide_false, cond_false, List.map_nil, List.sum_nil, State.ringHeld,
        Nat.add_zero]
  · rw [hpool]; exact h.freeLinks
  · intro d
    rw [openFits_iff, hrx]
    split
    · next hd => subst hd; rw [hown, hidle]; exact fits_nil rfl rfl rfl
    · next hd => rw [hother d hd]; exact (openFits_iff s d).mp (h.fits d)
  · intro d hd
    rw [hentries] at hd
    rw [hchain]
    rcases List.mem_append.mp hd with hd | hd
    · exact h.lengths d hd
    · rw [List.mem_singleton.mp hd, hended]; exact hlength

/-! ## A block granted (R102) -/

/-- A chain grows by a block that its last block links to and that has no link itself. -/
theorem chainFrom_snoc {l m : Vector (Option BlockNo) 128} {b : BlockNo} (hb : m.get b = none) (n : Nat) (a : BlockNo)
    (hlen : (chainFrom l n (some a)).length < n) (hnodup : (chainFrom l n (some a)).Nodup)
    (hm : ∀ k ∈ chainFrom l n (some a),
      m.get k = if (chainFrom l n (some a)).getLast? = some k then some b else l.get k) :
    chainFrom m n (some a) = chainFrom l n (some a) ++ [b] := by
  induction n generalizing a with
  | zero => exact absurd hlen (Nat.not_lt_zero _)
  | succ n ih =>
    simp only [chainFrom] at hlen hnodup hm ⊢
    have ha := hm a (List.mem_cons_self ..)
    cases hl : l.get a with
    | none =>
      have hnil : chainFrom l n none = [] := by cases n <;> rfl
      simp only [hl, hnil, List.length_singleton, List.getLast?_singleton, if_true] at hlen ha ⊢
      obtain ⟨n, rfl⟩ : ∃ k, n = k + 1 := ⟨n - 1, by omega⟩
      rw [ha, chainFrom, hb]
      have hnil' : chainFrom m n none = [] := by cases n <;> rfl
      rw [hnil']
      rfl
    | some a' =>
      simp only [hl, List.length_cons, List.nodup_cons] at hlen hnodup hm ha ⊢
      have hne : chainFrom l n (some a') ≠ [] := by
        cases n with
        | zero => simp at hlen
        | succ n => simp [chainFrom]
      have hlast : (a :: chainFrom l n (some a')).getLast? = (chainFrom l n (some a')).getLast? := List.getLast?_cons_of_ne_nil hne
      have hnot : (chainFrom l n (some a')).getLast? ≠ some a := fun e => hnodup.1 (List.mem_of_getLast? e)
      rw [hlast, if_neg hnot] at ha
      rw [ha, ih a' (by omega) hnodup.2 fun k hk => ?_]
      · rfl
      · rw [hm k (List.mem_cons_of_mem _ hk), hlast]

theorem linkedTo_get (links : Vector (Option BlockNo) 128) (cur : Option BlockNo) (b k : BlockNo) :
    (linkedTo links cur b).get k = if cur = some k then some b else if k = b then none else links.get k := by
  cases cur with
  | none => simp [linkedTo, setLink_get]
  | some j => simp only [linkedTo, setLink_get, Option.some.injEq, eq_comm (a := j)]

theorem grant_blocksFit {s : State} (h : BlocksFit s) {c : Chan} {b : BlockNo} {rest : List BlockNo}
    (hst : (s.chan c).rx.st = .opened) (hfree : s.pool.free = b :: rest)
    (hfull : (s.chan c).rx.cur = none ∨ 32 ≤ (s.chan c).rx.fill) : BlocksFit (grant c b rest s) := by
  obtain ⟨hfree', hlinks', -⟩ := grant_pool c b rest s
  have hheld := fun d => grant_held c d b rest s
  have hrx := fun d => grant_rx c d b rest s
  have hring := grant_ring c b rest s
  have hfit := (openFits_iff s c).mp (h.fits c)
  have hbfree : b ∈ s.pool.free := by rw [hfree]; exact List.mem_cons_self ..
  have hbopen : ∀ d, b ∉ s.openChain d := fun d => h.beside d (mem_blocksBeside_free hbfree)
  have hbring : ∀ d ∈ s.ring.entries, b ∉ s.pool.chain d.first := by
    intro d hd hb
    have hperm : s.allBlocks = s.pool.free ++ (channels.flatMap s.openChain ++ s.ringChains) := by
      rw [allBlocks_eq, List.append_assoc]
    have hnodup := h.nodup
    rw [hperm] at hnodup
    exact (List.nodup_append.mp hnodup).2.2 b hbfree b
      (List.mem_append_right _ (List.mem_flatMap.mpr ⟨d, hd, hb⟩)) rfl
  generalize grant c b rest s = t at *
  have hget : ∀ k, t.pool.links.get k =
      if (s.chan c).rx.cur = some k then some b else if k = b then none else s.pool.links.get k := by
    rw [hlinks']; exact linkedTo_get _ _ b
  have hagree : ∀ first, (∀ k ∈ s.pool.chain first, (s.chan c).rx.cur ≠ some k ∧ k ≠ b) →
      t.pool.chain first = s.pool.chain first := fun first hk =>
    chainFrom_agree 128 first fun k hmem => by rw [hget, if_neg (hk k hmem).1, if_neg (hk k hmem).2]
  have hcur : ∀ k, (s.chan c).rx.cur = some k → k ∈ s.openChain c := fun k hk => List.mem_of_getLast? (hfit.last.trans hk)
  have hringChain : ∀ d ∈ s.ring.entries, t.pool.chain d.first = s.pool.chain d.first := fun d hd =>
    hagree _ fun k hk => ⟨fun e => h.beside c (mem_blocksBeside_ring hd hk) (hcur k e), fun e => hbring d hd (e ▸ hk)⟩
  have hother : ∀ d, d ≠ c → t.openChain d = s.openChain d := by
    intro d hd
    rw [State.openChain, hrx, if_neg hd]
    exact hagree _ fun k hk => ⟨fun e => h.beside c (mem_blocksBeside_open hd hk) (hcur k e), fun e => hbopen d (e ▸ hk)⟩
  have hown : t.openChain c = s.openChain c ++ [b] := by
    rw [State.openChain, hrx, if_pos rfl, RxUnit.given]
    dsimp only
    cases hfirst : (s.chan c).rx.first with
    | none =>
      have hnone := hfit.absent.mp hfirst
      have hb : t.pool.links.get b = none := by rw [hget, hnone]; simp
      rw [State.openChain, hfirst, chain_none, Option.none_or, List.nil_append, Pool.chain, chainFrom, hb]
      rfl
    | some a =>
      rw [Option.some_or]
      have hopen : s.openChain c = chainFrom s.pool.links 128 (some a) := by rw [State.openChain, hfirst]; rfl
      have hlast := hfit.last
      have hb : t.pool.links.get b = none := by
        rw [hget, if_neg fun e => hbopen c (hcur b e), if_pos rfl]
      have hlen := h.openChain_lt c hbfree
      have hnodup := h.openChain_nodup c
      rw [hopen] at hlast hlen hnodup ⊢
      refine chainFrom_snoc hb 128 a hlen hnodup fun k hk => ?_
      rw [hget, hlast]
      split
      · rfl
      · rw [if_neg fun e => hbopen c (by rw [hopen, ← e]; exact hk)]
  have hentries : t.ring.entries = s.ring.entries := by rw [hring]
  have hperm : t.allBlocks.Perm s.allBlocks := by
    refine (allBlocks_perm t c).trans (.trans ?_ (allBlocks_perm s c).symm)
    rw [hown, State.blocksBeside, State.blocksBeside, hfree', hfree, others_congr hother, ringChains_congr hentries hringChain]
    simp only [List.append_assoc, List.cons_append, List.nil_append]
    exact List.Perm.refl _
  constructor
  · exact hperm.nodup_iff.mpr h.nodup
  · exact hperm.length_eq.trans h.count
  · intro d
    rw [hheld, ringHeld_congr hentries hringChain]
    have hs := h.held d
    split
    · next hd => subst hd; rw [hown, List.length_append, List.length_singleton]; omega
    · next hd => rw [hother d hd]; exact hs
  · intro k hk
    rw [hfree'] at hk
    have hkfree : k ∈ s.pool.free := by rw [hfree]; exact List.mem_cons_of_mem _ hk
    rw [hget, if_neg fun e => h.beside c (mem_blocksBeside_free hkfree) (hcur k e)]
    split
    · rfl
    · exact h.freeLinks k hkfree
  · intro d
    rw [openFits_iff, hrx]
    split
    · next hd =>
      subst hd
      rw [hown]
      refine ⟨by cases hf : (s.chan d).rx.first <;> simp [RxUnit.given, hf], by simp [RxUnit.given], by simp [RxUnit.given],
        fun _ => Nat.zero_le _, fun _ => ?_, fun _ => .inl hst⟩
      show (s.chan d).rx.len + 32 = 32 * (s.openChain d ++ [b]).length + 0
      rw [List.length_append, List.length_singleton]
      by_cases hc : (s.chan d).rx.cur = none
      · have hnil : s.openChain d = [] := by rw [State.openChain, hfit.absent.mpr hc, chain_none]
        rw [hfit.empty hc, hnil]
        rfl
      · have hlen := hfit.len hc
        have hle := hfit.fill hc
        have hge := hfull.resolve_left hc
        omega
    · next hd => rw [hother d hd]; exact (openFits_iff s d).mp (h.fits d)
  · intro d hd
    rw [hentries] at hd
    rw [hringChain d hd]
    exact h.lengths d hd

/-! ## Every move -/

/-- Without messages every block is free. -/
theorem blocksFit_of_fresh {s : State} (hfree : s.pool.free = List.finRange 128) (hlinks : s.pool.links = Vector.replicate 128 none)
    (hentries : s.ring.entries = []) (hchan : ∀ c, (s.chan c).rx = {} ∧ (s.chan c).held = 0) : BlocksFit s := by
  have hopen : ∀ c, s.openChain c = [] := fun c => by rw [State.openChain, (hchan c).1]; rfl
  have hall : s.allBlocks = List.finRange 128 := by simp [State.allBlocks, hfree, hentries, hopen]
  constructor
  · rw [hall]; exact List.nodup_finRange 128
  · rw [hall]; exact List.length_finRange
  · intro c; rw [(hchan c).2, hopen, State.ringHeld, hentries]; rfl
  · intro b _
    rw [hlinks]
    exact Vector.getElem_replicate b.isLt
  · intro c; rw [openFits_iff, hopen, (hchan c).1]; exact fits_nil rfl rfl rfl
  · rw [hentries]; simp

theorem evalPoolLow_held (s : State) (d : Chan) : ((evalPoolLow s).chan d).held = (s.chan d).held := by
  have h := congrArg Channel.held (evalPoolLow_chan_frame s d); exact h

theorem Move.keeps_blocksFit {s t : State} (h : Move s t) (hs : BlocksFit s) : BlocksFit t := by
  cases h with
  | quiet chans pool ring =>
    exact hs.of_units (by rw [pool]) (by rw [pool]) (by rw [ring]) fun c => by rw [chan_congr chans]; exact ⟨rfl, rfl⟩
  | aside | transmit | txEnable | flow => exact hs.setChan rfl rfl
  | hostCause => rw [setHostCause_eq]; exact hs.setChan (settled_rx _) (settled_held _)
  | clearFlow =>
    rw [evalQuota_eq, chan_setFl_same, setFl_eq, setChan_setChan]
    exact hs.setChan (quotaSettled_rx _) (quotaSettled_held _)
  | @configure c n w =>
    have hrx := congrArg Channel.rx (configured_frame (s.chan c) n w)
    have hheld := congrArg Channel.held (configured_frame (s.chan c) n w)
    exact hs.setChan hrx hheld
  | poolcfg =>
    refine hs.of_units ?_ ?_ ?_ fun c => ⟨?_, ?_⟩
    · rw [evalPoolLow_pool]
    · rw [evalPoolLow_pool]
    · rw [evalPoolLow_ring]
    · rw [evalPoolLow_rx]; rfl
    · rw [evalPoolLow_held]; rfl
  | ringcfg => exact hs.of_units rfl rfl rfl fun _ => ⟨rfl, rfl⟩
  | readOffset => exact hs.of_units rfl rfl rfl fun _ => ⟨rfl, rfl⟩
  | @opens c idle =>
    have hreservation : BlocksFit (takeReservation s) := hs.of_units rfl rfl rfl fun _ => ⟨rfl, rfl⟩
    have hfit := (openFits_iff s c).mp (hs.fits c)
    obtain ⟨hfirst, hcur, hlen⟩ := hfit.without_block (by simp [idle]) (by simp [idle])
    exact hreservation.setRx rfl ⟨hfit.absent, hfit.last, hfit.empty, hfit.fill, hfit.len, fun h => absurd hcur h⟩
  | @receive c u reserves first cur fill len st =>
    have hfit := (openFits_iff s c).mp (hs.fits c)
    refine hs.setRx first ⟨?_, ?_, ?_, ?_, ?_, ?_⟩
    · rw [first, cur]; exact hfit.absent
    · rw [cur]; exact hfit.last
    · rw [cur, len]; exact hfit.empty
    · rw [cur, fill]; exact hfit.fill
    · rw [cur, len, fill]; exact hfit.len
    · rw [cur]; exact fun h => st (hfit.st h)
  | @rests c none =>
    obtain ⟨hfirst, hcur, hlen⟩ := ((openFits_iff s c).mp (hs.fits c)).without_reservation none
    refine hs.setRx hfirst.symm ?_
    rw [State.openChain, hfirst]
    exact fits_nil rfl rfl rfl
  | closes held ends => exact closeMsg_blocksFit hs ends held
  | discards held => exact discardMsg_blocksFit hs held
  | overruns => exact overrunMsg_blocksFit hs _
  | grants opened free full => exact grant_blocksFit hs opened free full
  | @stores c k b cur room =>
    have hwritten : BlocksFit (s.writePoolByte k (s.chan c).rx.fill b) := hs.of_units rfl rfl rfl fun _ => ⟨rfl, rfl⟩
    have hfit := (openFits_iff s c).mp (hs.fits c)
    have hsome : (s.chan c).rx.cur ≠ none := by simp [cur]
    have hlen := hfit.len hsome
    refine hwritten.setRx rfl ⟨hfit.absent, hfit.last, fun h => absurd h hsome, fun _ => room, fun _ => ?_, hfit.st⟩
    show (s.chan c).rx.len + 1 + 32 = 32 * (s.openChain c).length + ((s.chan c).rx.fill + 1)
    omega
  | releases head => exact releaseHead_blocksFit hs head
  | softReset => exact blocksFit_of_fresh rfl rfl rfl fun c => by rw [softReset_chan]; exact ⟨rfl, rfl⟩
  | hardReset => exact blocksFit_of_fresh rfl rfl rfl fun c => by rw [hardReset_chan]; exact ⟨rfl, rfl⟩

/-! ## The read offset (R132, R133) -/

/-- The law of the read offset in two cases. -/
theorem offsetLaw_iff (s : State) :
    s.offsetLaw ↔ (s.ring.entries = [] → s.ring.readOff = 0) ∧
      ∀ d rest, s.ring.entries = d :: rest → s.ring.readOff ≤ d.length := by
  unfold State.offsetLaw
  cases s.ring.entries with
  | nil => simp
  | cons d rest => simp

theorem offsetLaw_congr {s t : State} (h : s.offsetLaw) (hentries : t.ring.entries = s.ring.entries)
    (hoff : t.ring.readOff = s.ring.readOff) : t.offsetLaw := by
  rw [offsetLaw_iff] at h ⊢
  rw [hentries, hoff]
  exact h

theorem offsetLaw_of_zero {s : State} (h : s.ring.readOff = 0) : s.offsetLaw := by
  rw [offsetLaw_iff, h]
  exact ⟨fun _ => rfl, fun _ _ _ => Nat.zero_le _⟩

theorem Move.keeps_offsetLaw {s t : State} (h : Move s t) (hs : s.offsetLaw) : t.offsetLaw := by
  cases h with
  | quiet _ _ ring => exact offsetLaw_congr hs (by rw [ring]) (by rw [ring])
  | aside | transmit | txEnable | flow | configure | ringcfg | opens | receive | rests | stores => exact hs
  | hostCause => rw [setHostCause_eq]; exact hs
  | clearFlow => rw [evalQuota_eq]; exact hs
  | poolcfg => exact offsetLaw_congr hs (by rw [evalPoolLow_ring]) (by rw [evalPoolLow_ring])
  | readOffset head within =>
    obtain ⟨-, hhead⟩ := (offsetLaw_iff s).mp hs
    rw [offsetLaw_iff]
    dsimp only
    rw [head]
    refine ⟨fun h => absurd h (by simp), fun d' rest' h => ?_⟩
    obtain ⟨rfl, -⟩ := List.cons.inj h
    exact within (hhead _ _ head)
  | closes held ends =>
    obtain ⟨hempty, hhead⟩ := (offsetLaw_iff s).mp hs
    have hring := closeMsg_ring ends held
    rw [offsetLaw_iff, hring]
    refine ⟨fun h => by simp [Ring.joined] at h, fun d rest h => ?_⟩
    show s.ring.readOff ≤ d.length
    cases hentries : s.ring.entries with
    | nil => rw [hempty hentries]; exact Nat.zero_le _
    | cons e more =>
      simp only [Ring.joined, hentries, List.cons_append] at h
      obtain ⟨rfl, -⟩ := List.cons.inj h
      exact hhead _ _ hentries
  | discards held => exact offsetLaw_congr hs (by rw [discardMsg_ring held]) (by rw [discardMsg_ring held])
  | overruns => exact offsetLaw_congr hs (by rw [overrunMsg_ring]) (by rw [overrunMsg_ring])
  | grants => exact offsetLaw_congr hs (by rw [grant_ring]) (by rw [grant_ring])
  | releases => exact offsetLaw_of_zero rfl
  | softReset => exact offsetLaw_of_zero rfl
  | hardReset => exact offsetLaw_of_zero rfl

end Sys2Proof.Machine
end

section
/-! PROOFS. Every operation of the part is a row of moves: of the event unit, the transmit unit, the flow unit, the receive unit and
the pool. -/

namespace Sys2Proof.Machine

open Sys2Proof

/-! ## Rows of moves -/

theorem Moves.quiet {s t : State} (chans : t.chans = s.chans) (pool : t.pool = s.pool) (ring : t.ring = s.ring)
    (tim : t.tim = s.tim) : Moves s t :=
  Move.one (.quiet chans pool ring fun h => tim ▸ h)

/-- A timing unit whose configuration stays. -/
theorem Moves.timing {s t : State} (chans : t.chans = s.chans) (pool : t.pool = s.pool) (ring : t.ring = s.ring)
    (limit : t.tim.limit = s.tim.limit) (refdiv : t.tim.refdiv = s.tim.refdiv) : Moves s t :=
  Move.one (.quiet chans pool ring fun h => by rw [Timing.inRange, limit, refdiv]; exact h)

theorem takeAll_moves {l : List (State → State)} (h : ∀ f ∈ l, ∀ s, Moves s (f s)) (s : State) : Moves s (takeAll l s) :=
  takeAll_keeps (P := Moves s) (fun f hf t ht => ht.trans (h f hf t)) .refl

theorem takeTogether_moves {l : List (State → State)} (h : ∀ f ∈ l, ∀ s, Moves s (f s)) (isOpen : Bool) (s : State) :
    Moves s (takeTogether isOpen l s) :=
  takeTogether_keeps (P := Moves s) (fun f hf t ht => ht.trans (h f hf t)) (fun _ ht => ht.trans (.quiet rfl rfl rfl rfl))
    isOpen .refl

theorem channels_moves {act : Chan → State → State} (h : ∀ c s, Moves s (act c s)) :
    ∀ f ∈ channels.map act, ∀ s, Moves s (f s) := by
  intro f hf s
  obtain ⟨c, -, rfl⟩ := List.mem_map.mp hf
  exact h c s

theorem raise_moves (x : Source) (s : State) : Moves s (raise x s) := .quiet rfl rfl rfl rfl

theorem setSticky_moves (s : State) (c : Chan) (k : Sticky) : Moves s (s.setSticky c k) :=
  Move.one (.aside s c (s.chan c).peer k)

theorem setPeer_moves (s : State) (c : Chan) (p : Peer) : Moves s (s.setPeer c p) :=
  Move.one (.aside s c p (s.chan c).sticky)

/-! ## The transmit unit -/

theorem setTx_moves {s : State} {c : Chan} {u : TxUnit} (h : (s.chan c).tx.listLaw → u.listLaw) : Moves s (s.setTx c u) :=
  Move.one (.transmit h)

/-- A transmit unit with the same list. -/
theorem setTx_moves_same {s : State} {c : Chan} {u : TxUnit} (hr : u.records = (s.chan c).tx.records)
    (hl : u.lone = (s.chan c).tx.lone) : Moves s (s.setTx c u) :=
  setTx_moves fun h => by rw [TxUnit.listLaw, hr, hl]; exact h

/-- The list law with its parts named. -/
structure TxUnit.ListFits (u : TxUnit) : Prop where
  bytes : (u.records.map fun x => x.bytes.length).sum ≤ 512
  places : u.records.length ≤ 8
  nonempty : ∀ x ∈ u.records, x.bytes ≠ []
  older : ∀ x ∈ u.records.dropLast, x.closed = true
  sound : ∀ x ∈ u.records, x.closed = true → x.poisoned = false
  lone : u.lone = true → ∀ x ∈ u.records, x.closed = true

theorem listLaw_iff (u : TxUnit) : u.listLaw ↔ u.ListFits :=
  ⟨fun ⟨a, b, c, d, e, f⟩ => ⟨a, b, c, d, e, f⟩, fun h => ⟨h.bytes, h.places, h.nonempty, h.older, h.sound, h.lone⟩⟩

/-- The records of a unit are none, or older ones and a newest. -/
theorem records_cases (u : TxUnit) : u.records = [] ∨ ∃ old x, u.records = old ++ [x] := by
  rcases List.eq_nil_or_concat u.records with h | ⟨old, x, h⟩
  · exact .inl h
  · exact .inr ⟨old, x, by simpa using h⟩

theorem hasOpen_true {u : TxUnit} (h : u.hasOpen = true) : ∃ old x, u.records = old ++ [x] ∧ x.closed = false := by
  rcases records_cases u with hn | ⟨old, x, hx⟩
  · simp [TxUnit.hasOpen, hn] at h
  · exact ⟨old, x, hx, by simpa [TxUnit.hasOpen_append hx] using h⟩

/-- Without an open record every record is closed. -/
theorem TxUnit.ListFits.all_closed {u : TxUnit} (h : u.ListFits) (ho : u.hasOpen = false) : ∀ x ∈ u.records, x.closed = true := by
  intro x hx
  rcases records_cases u with hn | ⟨old, y, hy⟩
  · simp [hn] at hx
  · rw [hy] at hx
    rcases List.mem_append.mp hx with hx | hx
    · exact h.older x (by rw [hy, List.dropLast_concat]; exact hx)
    · rw [List.mem_singleton.mp hx]
      simpa [TxUnit.hasOpen_append hy] using ho

theorem store_listLaw {u : TxUnit} (ha : u.accepts = true) (b : Byte) (h : u.listLaw) : (u.store b).listLaw := by
  rw [listLaw_iff] at h ⊢
  obtain ⟨hfree, hroom⟩ := u.accepts_iff.mp ha
  cases ho : u.hasOpen with
  | true =>
    obtain ⟨old, x, hx, hopen⟩ := hasOpen_true ho
    rw [TxUnit.store_open hx hopen]
    obtain ⟨hbytes, hplaces, hne, holder, hsound, hlone⟩ := h
    rw [hx] at hbytes hplaces hne holder hsound hlone hfree
    constructor
    · simp at hbytes hfree ⊢; omega
    · simpa using hplaces
    · simp only [List.mem_append, List.mem_singleton] at hne ⊢
      rintro y (hy | rfl)
      · exact hne y (.inl hy)
      · simp
    · simpa using holder
    · simp only [List.mem_append, List.mem_singleton] at hsound ⊢
      rintro y (hy | rfl)
      · exact hsound y (.inl hy)
      · simp [hopen]
    · intro hl
      have hclosed := hlone hl x (by simp)
      simp [hopen] at hclosed
  | false =>
    have hlt : u.records.length < 8 := hroom.resolve_left (by simp [ho])
    have hall := h.all_closed ho
    rw [TxUnit.store_new ho]
    obtain ⟨hbytes, hplaces, hne, holder, hsound, hlone⟩ := h
    constructor
    · simp; omega
    · simp; omega
    · simp only [List.mem_append, List.mem_singleton]
      rintro y (hy | rfl)
      · exact hne y hy
      · simp
    · simpa using hall
    · simp only [List.mem_append, List.mem_singleton]
      rintro y (hy | rfl)
      · exact hsound y hy
      · simp
    · simp

theorem refuse_listLaw {u : TxUnit} (last : Bool) (h : u.listLaw) : (u.refuse last).listLaw := by
  rw [listLaw_iff] at h ⊢
  unfold TxUnit.refuse
  split
  · next ho =>
    obtain ⟨old, x, hx, hopen⟩ := hasOpen_true ho
    rw [TxUnit.modNewest_append hx]
    obtain ⟨hbytes, hplaces, hne, holder, hsound, hlone⟩ := h
    rw [hx] at hbytes hplaces hne holder hsound hlone
    constructor
    · simpa using hbytes
    · simpa using hplaces
    · simp only [List.mem_append, List.mem_singleton] at hne ⊢
      rintro y (hy | rfl)
      · exact hne y (.inl hy)
      · exact hne x (.inr rfl)
    · simpa using holder
    · simp only [List.mem_append, List.mem_singleton] at hsound ⊢
      rintro y (hy | rfl)
      · exact hsound y (.inl hy)
      · simp [hopen]
    · intro hl
      have hclosed := hlone hl x (by simp)
      simp [hopen] at hclosed
  · next ho =>
    split
    · exact h
    · exact { h with lone := fun _ => h.all_closed (by simpa using ho) }

/-- A list without its newest record, or without its first. -/
theorem sublist_listLaw {u v : TxUnit} (h : u.listLaw) (hsub : v.records.Sublist u.records)
    (hdrop : ∀ x ∈ v.records.dropLast, x ∈ u.records.dropLast) (hl : v.lone = true → u.lone = true) : v.listLaw := by
  rw [listLaw_iff] at h ⊢
  constructor
  · exact ((hsub.map fun x => x.bytes.length).sum_le_sum (fun _ _ => Nat.zero_le _)).trans h.bytes
  · exact hsub.length_le.trans h.places
  · exact fun x hx => h.nonempty x (hsub.subset hx)
  · exact fun x hx => h.older x (hdrop x hx)
  · exact fun x hx => h.sound x (hsub.subset hx)
  · exact fun hv x hx => h.lone (hl hv) x (hsub.subset hx)

theorem dropHead_listLaw {u : TxUnit} (h : u.listLaw) : u.dropHead.listLaw := by
  refine sublist_listLaw h (List.tail_sublist _) (fun x hx => ?_) id
  have hx' : x ∈ u.records.tail.dropLast := hx
  rw [← List.tail_dropLast] at hx'
  exact List.mem_of_mem_tail hx'

theorem dropNewest_listLaw {u : TxUnit} (h : u.listLaw) : u.dropNewest.listLaw :=
  sublist_listLaw h (List.dropLast_sublist _) (fun _ hx => (List.dropLast_sublist _).subset hx) id

/-- The newest record is closed where it is not poisoned (R80). -/
theorem close_listLaw {u : TxUnit} (ho : u.hasOpen = true) (hp : u.newestPoisoned = false) (h : u.listLaw) :
    (u.modNewest fun x => { x with closed := true }).listLaw := by
  obtain ⟨old, x, hx, hopen⟩ := hasOpen_true ho
  rw [TxUnit.newestPoisoned_append hx] at hp
  rw [TxUnit.modNewest_append hx]
  rw [listLaw_iff] at h ⊢
  obtain ⟨hbytes, hplaces, hne, holder, hsound, hlone⟩ := h
  rw [hx] at hbytes hplaces hne holder hsound hlone
  constructor
  · simpa using hbytes
  · simpa using hplaces
  · simp only [List.mem_append, List.mem_singleton] at hne ⊢
    rintro y (hy | rfl)
    · exact hne y (.inl hy)
    · exact hne x (.inr rfl)
  · simpa using holder
  · simp only [List.mem_append, List.mem_singleton] at hsound ⊢
    rintro y (hy | rfl)
    · exact hsound y (.inl hy)
    · exact fun _ => hp
  · intro hl
    have hclosed := hlone hl x (by simp)
    simp [hopen] at hclosed

theorem reportDrop_moves (c : Chan) (d : DropReason) (s : State) : Moves s (reportDrop c d s) :=
  (setTx_moves_same (u := { (s.chan c).tx with lastDrop := d }) rfl rfl).trans (.quiet rfl rfl rfl rfl)

theorem closeWritten_moves (c : Chan) (s : State) : Moves s (closeWritten c s) := by
  unfold closeWritten
  dsimp only
  split
  · next ho =>
    split
    · exact (setTx_moves dropNewest_listLaw).trans (reportDrop_moves ..)
    · next hp => exact setTx_moves (close_listLaw ho (by simpa using hp))
  · refine (setTx_moves fun h => ?_).trans (reportDrop_moves ..)
    rw [listLaw_iff] at h ⊢
    exact { h with lone := fun hl => by simp at hl }

theorem writeTxdata_moves (c : Chan) (w : Word) (s : State) : Moves s (writeTxdata c w s) := by
  have hbyte : Moves s (if (s.chan c).tx.accepts then s.setTx c ((s.chan c).tx.store (lowByte w))
      else (s.setTx c ((s.chan c).tx.refuse (wbit w 8))).setSticky c
        { ((s.setTx c ((s.chan c).tx.refuse (wbit w 8))).chan c).sticky with txOverflow := true }) := by
    split
    · next ha => exact setTx_moves (store_listLaw ha _)
    · exact (setTx_moves (refuse_listLaw _)).trans (setSticky_moves ..)
  unfold writeTxdata
  dsimp only
  split
  · exact hbyte.trans (closeWritten_moves ..)
  · exact hbyte

theorem shutdown_moves (c : Chan) (s : State) : Moves s (shutdown c s) := by
  have hsplit : shutdown c s = raise (.txShutdown c)
      ((s.setCfg c { (s.chan c).cfg with tx := false }).setTx c { (s.chan c).tx with coll := 0 }) := by
    simp [shutdown, setCfg_eq, setTx_eq]
  rw [hsplit]
  refine (Move.one (.txEnable s c false)).trans (.trans (setTx_moves_same ?_ ?_) (raise_moves ..)) <;> simp

theorem collided_records (u : TxUnit) (f : TxFlight) (limit : Nat) :
    (u.collided f limit).records = u.records ∧ (u.collided f limit).lone = u.lone := by
  unfold TxUnit.collided
  split
  · split <;> exact ⟨rfl, rfl⟩
  · exact ⟨rfl, rfl⟩

theorem collide_moves (c : Chan) (f : TxFlight) (s : State) : Moves s (collide c f s) := by
  obtain ⟨hr, hl⟩ := collided_records { (s.chan c).tx with coll := (s.chan c).tx.coll + 1 } f (s.chan c).cfg.restartLimit
  unfold collide
  dsimp only
  split
  · exact (setTx_moves_same hr hl).trans (shutdown_moves ..)
  · exact setTx_moves_same hr hl

theorem matchedMessage_listLaw (u : TxUnit) (f : TxFlight) (h : u.listLaw) : (u.matchedMessage f).listLaw := by
  unfold TxUnit.matchedMessage
  split
  · exact h
  · exact h
  · exact dropHead_listLaw h
  · exact h

theorem abortMatched_moves (c : Chan) (s : State) : Moves s (abortMatched c s) := by
  unfold abortMatched
  dsimp only
  split
  · refine (setTx_moves fun h => ?_).trans (reportDrop_moves ..)
    exact dropHead_listLaw h
  · exact setTx_moves_same rfl rfl

theorem matchedEcho_moves (c : Chan) (f : TxFlight) (s : State) : Moves s (matchedEcho c f s) := by
  unfold matchedEcho
  split
  · exact abortMatched_moves c s
  · exact setTx_moves (matchedMessage_listLaw _ f)

theorem outstandingTest_moves (c : Chan) (reenabled : Bool) (s : State) : Moves s (outstandingTest c reenabled s) := by
  unfold outstandingTest
  dsimp only
  split
  · split
    · refine Moves.trans (t := { s with arb := s.arb + 1 }) (.quiet rfl rfl rfl rfl) ?_
      split <;> exact setTx_moves_same rfl rfl
    · split <;> exact setTx_moves_same rfl rfl
  · exact .refl

theorem txEcho_moves (c : Chan) (ok : Bool) (s : State) : Moves s (txEcho c ok s) := by
  unfold txEcho
  split
  · exact .refl
  · refine Moves.trans ?_ (outstandingTest_moves ..)
    refine Moves.trans (t := s.setTx c { (s.chan c).tx with flight := none })
      (setTx_moves_same rfl rfl) ?_
    split
    · exact matchedEcho_moves ..
    · split
      · exact collide_moves ..
      · exact setSticky_moves ..

theorem txDisable_moves (c : Chan) (s : State) : Moves s (txDisable c s) := by
  unfold txDisable
  dsimp only
  split
  · exact setTx_moves_same rfl rfl
  · split
    · exact setTx_moves_same rfl rfl
    · exact .refl

theorem unmapped_moves (c : Chan) (s : State) : Moves s (s.setTx c (s.chan c).tx.unmapped) := by
  unfold TxUnit.unmapped
  split <;> exact setTx_moves_same rfl rfl

/-! ## The flow unit -/

/-- A flow unit that owes no more than it did, with its causes and its local pause. -/
theorem setFl_moves {s : State} {c : Chan} {u : FlowUnit} (quota : u.quota = (s.chan c).fl.quota)
    (pool : u.pool = (s.chan c).fl.pool) (host : u.host = (s.chan c).fl.host)
    (asserted : u.asserted = (s.chan c).fl.asserted)
    (pauseOwed : u.pauseOwed = true → (s.chan c).fl.pauseOwed = true ∨ (s.chan c).fl.asserted = true)
    (resumeOwed : u.resumeOwed = true → (s.chan c).fl.resumeOwed = true ∨ (s.chan c).fl.asserted = false) :
    Moves s (s.setFl c u) :=
  Move.one (.flow quota pool host asserted pauseOwed resumeOwed)

theorem echo_moves (c : Chan) (ok : Bool) (s : State) : Moves s (s.setFl c ((s.chan c).fl.echo ok)) := by
  unfold FlowUnit.echo
  split
  · exact setFl_moves rfl rfl rfl rfl .inl .inl
  · refine setFl_moves rfl rfl rfl rfl (fun h => ?_) .inl
    simp only [Bool.or_eq_true, Bool.and_eq_true] at h
    exact h.imp_right And.right
  · refine setFl_moves rfl rfl rfl rfl .inl fun h => ?_
    simp only [Bool.or_eq_true, Bool.and_eq_true, Bool.not_eq_true'] at h
    exact h.imp_right And.right

theorem take_moves (c : Chan) (w : FlowWord) (s : State) : Moves s (s.setFl c ((s.chan c).fl.take w)) := by
  cases w with
  | pause => exact setFl_moves rfl rfl rfl rfl (by simp [FlowUnit.take]) .inl
  | resume => exact setFl_moves rfl rfl rfl rfl .inl (by simp [FlowUnit.take])

theorem flTrafficAbort_moves (c : Chan) (s : State) : Moves s (s.setFl c (s.chan c).fl.trafficAbort) := by
  refine setFl_moves rfl rfl rfl rfl (fun h => ?_) fun h => ?_
  · simpa [FlowUnit.trafficAbort] using h
  · simp only [FlowUnit.trafficAbort, Bool.or_eq_true, Bool.and_eq_true, Bool.not_eq_true'] at h
    exact h.imp_right And.left

theorem refreshStep_moves (c : Chan) (s : State) : Moves s (refreshStep c s) := by
  unfold refreshStep
  dsimp only
  split
  · next ha =>
    split
    · exact setFl_moves rfl rfl rfl rfl (fun _ => .inr ha) .inl
    · exact setFl_moves rfl rfl rfl rfl .inl .inl
  · exact .refl

theorem holdStep_moves (c : Chan) (s : State) : Moves s (holdStep c s) := by
  unfold holdStep
  dsimp only
  split
  · split
    · refine Moves.trans ?_ (raise_moves ..)
      exact setFl_moves rfl rfl rfl rfl .inl .inl
    · exact setFl_moves rfl rfl rfl rfl .inl .inl
  · exact .refl

theorem takePause_moves (c : Chan) (s : State) : Moves s (takePause c s) := by
  unfold takePause
  dsimp only
  split
  · exact setFl_moves rfl rfl rfl rfl .inl .inl
  · exact .refl

theorem takeResume_moves (c : Chan) (s : State) : Moves s (takeResume c s) := by
  unfold takeResume
  dsimp only
  split
  · exact setFl_moves rfl rfl rfl rfl .inl .inl
  · exact .refl

theorem letGo_moves (c : Chan) (s : State) : Moves s (letGo c s) := setFl_moves rfl rfl rfl rfl .inl .inl

/-! ## The receive unit -/

/-- A receive unit with the same state, chain and lengths. -/
theorem setRx_moves {s : State} {c : Chan} {u : RxUnit} (st : u.st = (s.chan c).rx.st) (first : u.first = (s.chan c).rx.first)
    (cur : u.cur = (s.chan c).rx.cur) (fill : u.fill = (s.chan c).rx.fill) (len : u.len = (s.chan c).rx.len) :
    Moves s (s.setRx c u) :=
  Move.one (.receive (by rw [RxUnit.reserves, RxUnit.reserves, st]) first cur fill len fun h => by rwa [st])

theorem idled_moves {c : Chan} {s : State} (h : (s.chan c).rx.reserves = false) : Moves s (s.setRx c (s.chan c).rx.idled) :=
  Move.one (.rests h)

theorem closingStatus_isSome (st : RxState) (cause : MsgStatus) : (closingStatus st cause).isSome = st.holdsReservation := by
  cases st <;> rfl

theorem closeMsg_moves {cause : MsgStatus} (h : cause ≠ .overrun) (c : Chan) (s : State) : Moves s (closeMsg c cause s) := by
  cases hr : (s.chan c).rx.reserves with
  | true => exact Move.one (.closes hr h)
  | false =>
    have hnone : closingStatus (s.chan c).rx.st cause = none := by
      rw [← Option.isSome_eq_false_iff.trans Option.isNone_iff_eq_none, closingStatus_isSome, ← reserves_eq_holdsReservation, hr]
    unfold closeMsg
    rw [hnone]
    dsimp only
    split
    · exact idled_moves hr
    · exact .refl

theorem discardMsg_moves (c : Chan) (s : State) : Moves s (discardMsg c s) := by
  cases hr : (s.chan c).rx.reserves with
  | true => exact Move.one (.discards hr)
  | false =>
    unfold discardMsg
    rw [← reserves_eq_holdsReservation, hr, if_neg Bool.false_ne_true]
    split
    · exact idled_moves hr
    · exact .refl

/-- After a discard the unit holds no reservation. -/
theorem discardMsg_reserves_false (c : Chan) (s : State) : ((discardMsg c s).chan c).rx.reserves = false := by
  cases hr : (s.chan c).rx.reserves with
  | true => rw [discardMsg_rx hr, if_pos rfl, reserves_idled]
  | false =>
    unfold discardMsg
    rw [← reserves_eq_holdsReservation, hr, if_neg Bool.false_ne_true]
    split
    · rw [setRx_rx, if_pos rfl, reserves_idled]
    · exact hr

theorem putByte_moves {c : Chan} {k : BlockNo} (b : Byte) {s : State} (hk : (s.chan c).rx.cur = some k)
    (hf : (s.chan c).rx.fill < 32) : Moves s (putByte c k b s) := Move.one (.stores hk hf)

theorem storeByte_moves {c : Chan} (b : Byte) {s : State} (hst : (s.chan c).rx.st = .opened) : Moves s (storeByte c b s) := by
  unfold storeByte
  dsimp only
  split
  · refine Move.one (.receive ?_ rfl rfl rfl rfl fun _ => .inr rfl)
    simp [RxUnit.reserves, hst]
  · split
    · next k hk hroom => exact putByte_moves b hk (by simpa using hroom)
    · next hnone =>
      have hfull : (s.chan c).rx.cur = none ∨ 32 ≤ (s.chan c).rx.fill := by
        cases hc : (s.chan c).rx.cur with
        | none => exact .inl rfl
        | some k => exact .inr (Nat.not_lt.mp fun hlt => hnone k hc (decide_eq_true hlt))
      split
      · exact Move.one (.overruns hst)
      · next k rest hfree =>
        split
        · refine (Move.one (.grants hst hfree hfull)).trans (putByte_moves b ?_ ?_)
          · rw [grant_rx, if_pos rfl]; rfl
          · rw [grant_rx, if_pos rfl]; exact Nat.zero_lt_succ _
        · exact Move.one (.overruns hst)

theorem beginMsg_moves {c : Chan} (b : Byte) {s : State} (hst : (s.chan c).rx.st = .idle) : Moves s (beginMsg c b s) := by
  unfold beginMsg
  split
  · next hg =>
    refine (Move.one (.opens hst hg)).trans (storeByte_moves b ?_)
    rw [chan_setRx_same]
  · refine Moves.trans (t := s.setRx c { (s.chan c).rx with st := .starved, seq := (s.chan c).rx.seq + 1 })
      (Move.one (.receive ?_ rfl rfl rfl rfl fun h => ?_)) ((setSticky_moves ..).trans (raise_moves ..))
    · simp [RxUnit.reserves, hst]
    · simp [hst] at h

theorem takeByte_moves (c : Chan) (b : Byte) (s : State) : Moves s (takeByte c b s) := by
  unfold takeByte
  split
  · next h => exact beginMsg_moves b h
  · next h => exact storeByte_moves b h
  all_goals exact .refl

theorem takeMessageWord_moves (c : Chan) (b : Byte) (last : Bool) (s : State) : Moves s (takeMessageWord c b last s) := by
  unfold takeMessageWord
  dsimp only
  split
  · have hseen : Moves s (s.setRx c { (s.chan c).rx with seen := true }) := setRx_moves rfl rfl rfl rfl rfl
    have hbyte := hseen.trans (takeByte_moves c b _)
    split
    · exact hbyte.trans (closeMsg_moves (by decide) ..)
    · exact hbyte
  · exact .refl

theorem takeCorrupt_moves (c : Chan) (s : State) : Moves s (takeCorrupt c s) := by
  unfold takeCorrupt
  split
  · split
    · exact setRx_moves rfl rfl rfl rfl rfl
    · exact setSticky_moves ..
  · exact .refl

theorem takeAbort_moves (c : Chan) (s : State) : Moves s (takeAbort c s) := by
  unfold takeAbort
  split
  · exact discardMsg_moves c s
  · exact .refl

theorem deliver_moves (c : Chan) (k : RxClass) (s : State) : Moves s (deliver c k s) := by
  have hmark : Moves s (s.setPeer c { (s.chan c).peer with mark := true }) := setPeer_moves ..
  cases k with
  | silent => exact .refl
  | idle => exact hmark
  | corrupt => exact hmark.trans (takeCorrupt_moves ..)
  | data b => exact hmark.trans (takeMessageWord_moves ..)
  | last b => exact hmark.trans (takeMessageWord_moves ..)
  | abort => exact hmark.trans (takeAbort_moves ..)
  | pause => exact hmark.trans (takePause_moves ..)
  | resume => exact hmark.trans (takeResume_moves ..)
  | unknownCtrl => exact hmark.trans (setSticky_moves ..)

theorem gapStep_moves (c : Chan) (s : State) : Moves s (gapStep c s) := by
  unfold gapStep
  dsimp only
  split
  · split
    · exact setRx_moves rfl rfl rfl rfl rfl
    · split
      · exact .refl
      · split
        · exact closeMsg_moves (by decide) ..
        · exact setRx_moves rfl rfl rfl rfl rfl
  · exact setRx_moves rfl rfl rfl rfl rfl

theorem clearSeen_moves (c : Chan) (s : State) : Moves s (clearSeen c s) := setRx_moves rfl rfl rfl rfl rfl

end Sys2Proof.Machine
end

section
/-! PROOFS. Every operation of the part is a row of moves: of the map, the slot engine, the timing unit and the host port; and with
them every step, but that a write of the enables ends with an evaluation of the local pause. -/

namespace Sys2Proof.Machine

open Sys2Proof

/-! ## Aborts, switches and falls -/

theorem abortChan_moves (c : Chan) (s : State) : Moves s (abortChan c s) := by
  have hsplit : abortChan c s = ((closeMsg c .sync s).setTx c ((closeMsg c .sync s).chan c).tx.trafficAbort).setFl c
      ((closeMsg c .sync s).chan c).fl.trafficAbort := by
    simp [abortChan, setTx_eq, setFl_eq]
  rw [hsplit]
  have hcause : MsgStatus.sync ≠ .overrun := by decide
  refine (closeMsg_moves hcause c s).trans ?_
  generalize closeMsg c .sync s = u
  have htx : Moves u (u.setTx c (u.chan c).tx.trafficAbort) :=
    setTx_moves_same (by rw [trafficAbort_eq]) (by rw [trafficAbort_eq])
  have hfl := flTrafficAbort_moves c (u.setTx c (u.chan c).tx.trafficAbort)
  rw [chan_setTx_same] at hfl
  exact htx.trans hfl

theorem trafficAbort_moves (s : State) : Moves s (trafficAbort s) := takeTogether_moves (channels_moves abortChan_moves) ..

theorem peerUnmapped_moves (c : Chan) (s : State) : Moves s (peerUnmapped c s) := by
  unfold peerUnmapped
  dsimp only
  split
  · exact (setPeer_moves ..).trans (raise_moves ..)
  · exact setPeer_moves ..

theorem switchNotice_moves (c : Chan) (s : State) : Moves s (switchNotice c s) := by
  have hcause : MsgStatus.unmapped ≠ .overrun := by decide
  have hrx : ∀ u : State, Moves u (if u.map.active.gives .rx c then u else peerUnmapped c (closeMsg c .unmapped u)) := by
    intro u
    split
    · exact .refl
    · exact (closeMsg_moves hcause c u).trans (peerUnmapped_moves ..)
  have htx : Moves s (if s.map.active.gives .tx c then s else s.setTx c (s.chan c).tx.unmapped) := by
    split
    · exact .refl
    · exact unmapped_moves c s
  exact htx.trans (hrx _)

theorem switchBanks_moves (s : State) : Moves s (switchBanks s) :=
  Moves.trans (t := s.copied) (.quiet rfl rfl rfl rfl) (takeTogether_moves (channels_moves switchNotice_moves) ..)

theorem fall_moves (aborts : Bool) (s : State) : Moves s (fall aborts s) := by
  refine takeTogether_moves (fun f hf t => ?_) _ s
  rcases List.mem_append.mp hf with hf | hf
  · obtain ⟨c, rfl⟩ := mem_aborts hf
    exact abortChan_moves c t
  · split at hf
    · rw [List.mem_singleton.mp hf]; exact switchBanks_moves t
    · simp at hf

/-! ## Slots -/

theorem beginSlot_moves (k : Nat) (s : State) : Moves s (beginSlot k s) := .quiet rfl rfl rfl rfl

theorem beginSampledSlot_moves (s : State) : Moves s (beginSampledSlot s) := .quiet rfl rfl rfl rfl

theorem withSlot_moves (x : SlotPhase) (s : State) : Moves s { s with slot := x } := .quiet rfl rfl rfl rfl

theorem setCmd_moves (a : CmdResult) (b : Reason) (k : BitVec 8) (s : State) : Moves s (setCmd a b k s) :=
  .quiet rfl rfl rfl rfl

theorem dropSlot_moves (s : State) : Moves s (dropSlot s) := .quiet rfl rfl rfl rfl

/-- A timing unit replaced by one with the same configuration. -/
theorem withTim_moves {s : State} {u : Timing} (limit : u.limit = s.tim.limit) (refdiv : u.refdiv = s.tim.refdiv) :
    Moves s { s with tim := u } := .timing rfl rfl rfl limit refdiv

theorem advanceSlot_moves (k : Nat) (s : State) : Moves s (advanceSlot k s) := by
  unfold advanceSlot
  split
  · exact beginSlot_moves ..
  · exact withSlot_moves ..

theorem slotEdge_moves (data : Bool) (s : State) : Moves s (slotEdge data s) := by
  unfold slotEdge
  split
  · dsimp only
    split
    · exact advanceSlot_moves ..
    · exact .quiet rfl rfl rfl rfl
  · exact .refl
  · exact .refl

theorem keepWord_moves (c : Chan) (k : TxKind) (s : State) : Moves s (keepWord c k s) := by
  have hkept : Moves s (s.setTx c { (s.chan c).tx with
      flight := some { kind := k, orphan := false }, sending := (s.chan c).tx.sending || k.isMessage }) :=
    setTx_moves_same rfl rfl
  unfold keepWord
  dsimp only
  split
  · exact hkept.trans (take_moves ..)
  · exact hkept.trans (take_moves ..)
  · exact hkept

theorem txSlotStep_moves (s : State) : Moves s (txSlotStep s) := by
  unfold txSlotStep
  split
  · split
    · exact (keepWord_moves ..).trans (withSlot_moves ..)
    · exact .refl
  · exact .refl
  · exact .refl

theorem echoStep_moves (s : State) : Moves s (echoStep s) := by
  unfold echoStep
  split
  · split
    · split
      · exact ((txEcho_moves ..).trans (echo_moves ..)).trans (advanceSlot_moves ..)
      · exact .refl
    · exact .refl
  · exact .refl
  · exact .refl

theorem rxWordStep_moves (s : State) : Moves s (rxWordStep s) := by
  unfold rxWordStep
  split
  · split
    · exact (deliver_moves ..).trans (advanceSlot_moves ..)
    · exact .refl
  · exact .refl
  · exact .refl

theorem settleSlot_moves (s : State) : Moves s (settleSlot s) := (echoStep_moves s).trans (rxWordStep_moves _)

theorem abandonSlot_moves (s : State) : Moves s (abandonSlot s) := (settleSlot_moves s).trans (dropSlot_moves _)

theorem freshFrame_moves (s : State) : Moves s (freshFrame s) :=
  takeAll_moves (channels_moves fun c t =>
    (clearSeen_moves c t).trans (setPeer_moves _ c { (t.chan c).peer with mark := false })) s

theorem beginFrameAtPulse_moves (s : State) : Moves s (beginFrameAtPulse s) :=
  (freshFrame_moves s).trans (beginSampledSlot_moves _)

/-! ## Frame boundaries -/

theorem peerStep_moves (worked : Bank) (c : Chan) (s : State) : Moves s (peerStep worked c s) := by
  unfold peerStep
  dsimp only
  split
  · split
    · exact setPeer_moves ..
    · exact (setPeer_moves ..).trans (raise_moves ..)
  · exact setPeer_moves ..

theorem readyStep_moves (s : State) : Moves s (readyStep s) := by
  unfold readyStep
  split
  · exact .refl
  · exact Move.one (.ringcfg fun ⟨hthreshold, htimeout, _⟩ => ⟨hthreshold, htimeout, Nat.min_le_left ..⟩)

theorem boundaryWork_moves (s : State) : Moves s (boundaryWork s) := by
  have htimed : Moves s s.timed := by
    refine takeAll_moves (fun f hf t => ?_) s
    rcases List.mem_append.mp hf with hf | hf
    · exact channels_moves refreshStep_moves f hf t
    · exact channels_moves holdStep_moves f hf t
  rw [boundaryWork_eq]
  refine htimed.trans (takeTogether_moves (fun f hf t => ?_) ..)
  rcases List.mem_cons.mp hf with rfl | hf
  · exact .timing rfl rfl rfl rfl rfl
  rcases List.mem_append.mp hf with hf | hf
  · simp only [boundaryActs, List.mem_append, List.mem_singleton] at hf
    rcases hf with (rfl | hf) | hf
    · exact readyStep_moves t
    · exact channels_moves gapStep_moves f hf t
    · exact channels_moves (peerStep_moves _) f hf t
  · split at hf
    · rw [List.mem_singleton.mp hf]; exact switchBanks_moves t
    · simp at hf

theorem beginNextFrame_moves (s : State) : Moves s (beginNextFrame s) := .timing rfl rfl rfl rfl rfl

theorem enterFlywheel_moves (s : State) : Moves s (enterFlywheel s) := .timing rfl rfl rfl rfl rfl

theorem lockedBoundary_moves (pulse : Bool) (s : State) : Moves s (lockedBoundary pulse s) := by
  unfold lockedBoundary
  split
  · refine Moves.trans ?_ (beginNextFrame_moves _)
    exact withTim_moves rfl rfl
  · split
    · refine Moves.trans ?_ (beginNextFrame_moves _)
      exact withTim_moves rfl rfl
    · exact enterFlywheel_moves s

theorem frameBoundaryStep_moves (pulse : Bool) (s : State) : Moves s (frameBoundaryStep pulse s) := by
  unfold frameBoundaryStep
  split
  · split
    · exact (boundaryWork_moves s).trans (beginNextFrame_moves _)
    · exact (boundaryWork_moves s).trans (lockedBoundary_moves ..)
    all_goals exact .refl
  · exact .refl

/-! ## Sync pulses -/

theorem pulseInSearch_moves (s : State) : Moves s (pulseInSearch s) := by
  unfold pulseInSearch
  split
  · refine Moves.trans (Moves.trans ?_ (raise_moves ..)) (beginFrameAtPulse_moves _)
    exact withTim_moves rfl rfl
  · exact .timing rfl rfl rfl rfl rfl

theorem pulseInListen_moves (s : State) : Moves s (pulseInListen s) := by
  unfold pulseInListen
  dsimp only
  split <;> exact .timing rfl rfl rfl rfl rfl

/-- The timing unit replaced by one with the same configuration, and no slot worked any more. -/
theorem leaveSlot_moves {s : State} {u : Timing} (limit : u.limit = s.tim.limit) (refdiv : u.refdiv = s.tim.refdiv) :
    Moves s { s with tim := u, slot := .idle } := .timing rfl rfl rfl limit refdiv

theorem conflict_moves (s : State) : Moves s (conflict s) := by
  refine Moves.trans (Moves.trans ?_ (raise_moves ..)) (fall_moves ..)
  exact leaveSlot_moves rfl rfl

theorem pulseInDriving_moves (s : State) : Moves s (pulseInDriving s) := by
  unfold pulseInDriving
  split
  · exact .refl
  · exact conflict_moves s

theorem realign_moves (s : State) : Moves s (realign s) := by
  refine Moves.trans (Moves.trans (Moves.trans ?_ (raise_moves ..)) (trafficAbort_moves _)) (beginFrameAtPulse_moves _)
  exact leaveSlot_moves rfl rfl

theorem keptLock_moves (s : State) : Moves s { s with tim := s.tim.keptLock } := withTim_moves rfl rfl

theorem beginSlotAtEdge_moves (s : State) : Moves s (beginSlotAtEdge s) := .quiet rfl rfl rfl rfl

theorem pulseExpected_moves (s : State) : Moves s (pulseExpected s) := by
  unfold pulseExpected
  split
  · exact keptLock_moves s
  · split
    · exact ((boundaryWork_moves s).trans (keptLock_moves _)).trans (beginSlotAtEdge_moves _)
    · exact (keptLock_moves s).trans (beginSampledSlot_moves _)

theorem strayPulse_moves (s : State) : Moves s (strayPulse s) := .timing rfl rfl rfl rfl rfl

theorem pulseInLocked_moves (s : State) : Moves s (pulseInLocked s) := by
  unfold pulseInLocked
  split
  · exact pulseExpected_moves s
  · split
    · exact realign_moves s
    · exact strayPulse_moves s

theorem relock_moves (s : State) : Moves s (relock s) := by
  refine Moves.trans ?_ (beginFrameAtPulse_moves _)
  exact withTim_moves rfl rfl

theorem pulseInFlywheel_moves (s : State) : Moves s (pulseInFlywheel s) := by
  unfold pulseInFlywheel
  split
  · exact relock_moves s
  · split
    · exact realign_moves s
    · exact strayPulse_moves s

theorem syncPulseStep_moves (s : State) : Moves s (syncPulseStep s) := by
  unfold syncPulseStep
  split
  · refine Moves.trans (t := { s with tim := { s.tim with pulse := false } }) (.timing rfl rfl rfl rfl rfl) ?_
    dsimp only
    split
    · exact .refl
    · exact pulseInListen_moves _
    · exact pulseInDriving_moves _
    · exact pulseInSearch_moves _
    · exact pulseInLocked_moves _
    · exact pulseInFlywheel_moves _
  · exact .refl

theorem edge_config (t : Timing) (sync : Bool) : (t.edge sync).limit = t.limit ∧ (t.edge sync).refdiv = t.refdiv := by
  unfold Timing.edge
  split <;> exact ⟨rfl, rfl⟩

theorem risingEdge_moves (sync data : Bool) (s : State) : Moves s (risingEdge sync data s) := by
  obtain ⟨hlimit, hrefdiv⟩ := edge_config s.tim sync
  have htim := settleSlot_tim s
  refine (settleSlot_moves s).trans ?_
  unfold risingEdge
  generalize settleSlot s = u at *
  refine Moves.trans ?_ (slotEdge_moves ..)
  exact .timing rfl rfl rfl (by rw [htim]; exact hlimit) (by rw [htim]; exact hrefdiv)

/-! ## Ends of local frame periods -/

theorem sampleLine_moves (sense : Bool) (s : State) : Moves s (sampleLine sense s) := by
  unfold sampleLine lineSteady lineChange
  split
  · split <;> exact .timing rfl rfl rfl rfl rfl
  · split
    · dsimp only
      split
      · exact .timing rfl rfl rfl rfl rfl
      · split <;> exact .timing rfl rfl rfl rfl rfl
    · exact .timing rfl rfl rfl rfl rfl

theorem startPeriod_moves (s : State) : Moves s (startPeriod s) := .quiet rfl rfl rfl rfl

theorem enterDriving_moves (s : State) : Moves s (enterDriving s) := by
  refine Moves.trans (Moves.trans (Moves.trans (Moves.trans ?_ (raise_moves ..)) (freshFrame_moves _)) (beginSlot_moves ..))
    (startPeriod_moves _)
  exact .timing rfl rfl rfl rfl rfl

theorem listenStep_moves (s : State) : Moves s (listenStep s) := by
  unfold listenStep
  split
  · exact enterDriving_moves s
  · exact .timing rfl rfl rfl rfl rfl

theorem holdoffStep_moves (s : State) : Moves s (holdoffStep s) := by
  unfold holdoffStep
  split <;> exact .timing rfl rfl rfl rfl rfl

theorem expireFlywheel_moves (s : State) : Moves s (expireFlywheel s) := by
  refine Moves.trans ?_ (fall_moves ..)
  unfold settleLoss
  split
  · exact .timing rfl rfl rfl rfl rfl
  · split <;> exact .timing rfl rfl rfl rfl rfl

theorem flywheelStep_moves (s : State) : Moves s (flywheelStep s) := by
  unfold flywheelStep
  split
  · exact .timing rfl rfl rfl rfl rfl
  · exact expireFlywheel_moves s

theorem loseClock_moves (s : State) : Moves s (loseClock s) := by
  exact ((abandonSlot_moves s).trans (enterFlywheel_moves _)).trans (trafficAbort_moves _)

theorem clockWatch_moves (s : State) : Moves s (clockWatch s) := by
  unfold clockWatch
  split
  · exact .refl
  · exact loseClock_moves s

theorem holdoffOrLine_moves (reaches : Bool) (s : State) : Moves s (holdoffOrLine reaches s) := by
  unfold holdoffOrLine
  dsimp only
  split
  · split <;> exact .timing rfl rfl rfl rfl rfl
  · unfold holdoffWithLine
    split
    · exact holdoffStep_moves s
    · exact .refl

theorem periodStep_moves (t : Timing) (s : State) : Moves s (periodStep t s) := by
  unfold periodStep
  split
  · exact .refl
  · exact listenStep_moves s
  · split
    · exact holdoffOrLine_moves ..
    · exact .refl
  · exact flywheelStep_moves s
  · exact clockWatch_moves s
  · exact frameBoundaryStep_moves false s

theorem newPeriod_moves (s : State) : Moves s (newPeriod s) := .timing rfl rfl rfl rfl rfl

theorem periodEnd_moves (sense : Bool) (s : State) : Moves s (periodEnd sense s) := by
  refine Moves.trans (Moves.trans (Moves.trans ?_ (sampleLine_moves ..)) (periodStep_moves ..)) (newPeriod_moves _)
  exact .quiet rfl rfl rfl rfl

theorem refclkTick_moves (s : State) : Moves s (refclkTick s) := by
  unfold refclkTick
  split
  · exact .quiet rfl rfl rfl rfl
  · split
    · exact .quiet rfl rfl rfl rfl
    · exact periodEnd_moves ..

/-! ## Host writes -/

theorem disableTiming_moves (s : State) : Moves s (disableTiming s) := by
  have htim : (abandonSlot s).tim = s.tim := settleSlot_tim s
  refine (abandonSlot_moves s).trans ?_
  unfold disableTiming
  generalize abandonSlot s = u at *
  refine Moves.trans ?_ (fall_moves ..)
  exact withTim_moves (by rw [htim]; rfl) (by rw [htim]; rfl)

/-- A TIMCFG word that is accepted has a flywheel limit from 1 to 15 (R16). -/
theorem writeTimcfg_moves (w : Word) (s : State) : Moves s (writeTimcfg w s) := by
  by_cases hr : s.tim.rejects w
  · rw [writeTimcfg_of_rejects hr]; exact .quiet rfl rfl rfl rfl
  obtain ⟨r, -, ha⟩ := timcfgAccepted_of_not_rejects hr
  have hlimit : 1 ≤ (w.extractLsb' 8 4).toNat ∧ (w.extractLsb' 8 4).toNat ≤ 15 := by
    have hlt := (w.extractLsb' 8 4).isLt
    have hpos : (w.extractLsb' 8 4).toNat ≠ 0 := fun h => hr (.inl h)
    omega
  have hstored : Moves s { s with tim := s.tim.storing w r } := Move.one (.quiet rfl rfl rfl fun h => ⟨hlimit, h.2⟩)
  unfold writeTimcfg
  rw [ha]
  dsimp only
  split
  · exact Move.one (.quiet rfl rfl rfl fun h => ⟨hlimit, h.2⟩)
  · split
    · exact hstored.trans (disableTiming_moves _)
    · exact hstored

theorem writeRefdiv_moves (w : Word) (s : State) : Moves s (writeRefdiv w s) := by
  unfold writeRefdiv
  split
  · exact .quiet rfl rfl rfl rfl
  · next h =>
    simp only [Bool.or_eq_true, decide_eq_true_eq, not_or, not_lt] at h
    exact Move.one (.quiet rfl rfl rfl fun hin => ⟨hin.1, h.1.2, h.2⟩)

theorem timingRestartCmd_moves (s : State) : Moves s (timingRestartCmd s) := by
  have htim : (abandonSlot s).tim = s.tim := settleSlot_tim s
  unfold timingRestartCmd
  split
  · exact .quiet rfl rfl rfl rfl
  · refine (abandonSlot_moves s).trans ?_
    generalize abandonSlot s = u at *
    refine Moves.trans (Moves.trans ?_ (fall_moves ..)) (setCmd_moves ..)
    exact withTim_moves (by rw [htim]; rfl) (by rw [htim]; rfl)

theorem writePoolcfg_moves (w : Word) (s : State) : Moves s (writePoolcfg w s) := by
  unfold writePoolcfg
  dsimp only
  split
  · exact .quiet rfl rfl rfl rfl
  · next h =>
    simp only [not_or, not_lt] at h
    exact Move.one (.poolcfg ⟨Nat.one_le_iff_ne_zero.mpr h.1, h.2.1⟩ h.2.2)

theorem field_lt (w : Word) (lo len : Nat) : field w lo len < 2 ^ len := Nat.mod_lt _ (Nat.two_pow_pos len)

theorem writeRingcfg_moves (w : Word) (s : State) : Moves s (writeRingcfg w s) := by
  unfold writeRingcfg
  dsimp only
  split
  · exact .quiet rfl rfl rfl rfl
  · next h =>
    simp only [not_or, not_lt] at h
    have hlt := field_lt w 8 8
    exact Move.one (.ringcfg fun ⟨_, _, htimer⟩ => ⟨⟨Nat.one_le_iff_ne_zero.mpr h.1, h.2⟩, by omega, htimer⟩)

theorem writeRxoffset_moves (w : Word) (s : State) : Moves s (writeRxoffset w s) := by
  unfold writeRxoffset
  split
  · exact .quiet rfl rfl rfl rfl
  · next d rest head =>
    split
    · exact .quiet rfl rfl rfl rfl
    · next h => exact Move.one (.readOffset head fun _ => Nat.not_lt.mp h)

theorem writeMapdata_moves (w : Word) (s : State) : Moves s (writeMapdata w s) := by
  unfold writeMapdata
  split
  · exact .quiet rfl rfl rfl rfl
  · split
    · exact .quiet rfl rfl rfl rfl
    · split <;> exact .quiet rfl rfl rfl rfl

theorem writeMaphdr_moves (w : Word) (s : State) : Moves s (writeMaphdr w s) := by
  unfold writeMaphdr
  split <;> exact .quiet rfl rfl rfl rfl

theorem writeChsel_moves (w : Word) (s : State) : Moves s (writeChsel w s) := by
  unfold writeChsel
  split <;> exact .quiet rfl rfl rfl rfl

theorem commitCmd_moves (s : State) : Moves s (commitCmd s) := by
  unfold commitCmd
  split
  · exact .quiet rfl rfl rfl rfl
  · split
    · exact .quiet rfl rfl rfl rfl
    · unfold acceptCommit
      dsimp only
      split
      · exact .quiet rfl rfl rfl rfl
      · refine Moves.trans (Moves.trans ?_ (switchBanks_moves _)) (setCmd_moves ..)
        exact .quiet rfl rfl rfl rfl

theorem cancelCmd_moves (s : State) : Moves s (cancelCmd s) := by
  unfold cancelCmd
  split <;> exact .quiet rfl rfl rfl rfl

theorem releaseCmd_moves (s : State) : Moves s (releaseCmd s) := by
  unfold releaseCmd
  split
  · exact .quiet rfl rfl rfl rfl
  · next head => exact (Move.one (.releases head)).trans (setCmd_moves ..)

theorem softResetCmd_moves (s : State) : Moves s (softResetCmd s) :=
  (Move.one (.softReset s)).trans (setCmd_moves ..)

theorem setHostCause_moves (on : Bool) (c : Chan) (s : State) : Moves s (setHostCause on c s) := Move.one (.hostCause s c on)

theorem flush_listLaw (u : TxUnit) : u.flush.listLaw := by simp [TxUnit.listLaw, TxUnit.flush]

theorem flushCmd_moves (c : Chan) (s : State) : Moves s (flushCmd c s) := by
  have htx : Moves s (s.setTx c (s.chan c).tx.flush) := setTx_moves fun _ => flush_listLaw _
  have hdiscard := htx.trans (discardMsg_moves c _)
  have hidle := hdiscard.trans (idled_moves (discardMsg_reserves_false c _))
  have hflow := hidle.trans (Move.one (.clearFlow _ c))
  exact (hflow.trans (setSticky_moves _ c {})).trans (setCmd_moves ..)

theorem runCommand_moves (code : BitVec 8) (s : State) : Moves s (runCommand code s) := by
  unfold runCommand
  split
  · exact commitCmd_moves s
  · exact cancelCmd_moves s
  · exact timingRestartCmd_moves s
  · exact releaseCmd_moves s
  · exact softResetCmd_moves s
  · exact flushCmd_moves _ s
  · exact (setHostCause_moves ..).trans (setCmd_moves ..)
  · exact (setHostCause_moves ..).trans (setCmd_moves ..)
  · exact .quiet rfl rfl rfl rfl

/-! ## A write of the enables -/

/-- The channel configuration with its enables replaced. -/
def ChanCfg.withEnables (g : ChanCfg) (rx tx fc : Bool) : ChanCfg := { g with rx := rx, tx := tx, fc := fc }

/-- From s to t the host has written the enables of a channel: they are stored, moves follow, and the local pause of the channel is
evaluated last (R66). -/
structure EnablesWritten (s t : State) : Prop where
  written : ∃ c rx tx fc u v, Moves s u ∧ Moves (u.setCfg c ((u.chan c).cfg.withEnables rx tx fc)) v ∧ t = evalPause c v

/-- What a step is: a row of moves, or a write of the enables. -/
inductive StepShape (s t : State) : Prop where
  | moves (h : Moves s t)
  | enables (h : EnablesWritten s t)

theorem StepShape.after {s t u : State} (h : Moves s t) (h' : StepShape t u) : StepShape s u := by
  cases h' with
  | moves h' => exact .moves (h.trans h')
  | enables h' =>
    obtain ⟨c, rx, tx, fc, v, w, hv, hw, rfl⟩ := h'
    exact .enables ⟨c, rx, tx, fc, v, w, h.trans hv, hw, rfl⟩

/-- An effect of the enables that is taken where one of them has gone. -/
theorem ite_moves {f : State → State} (h : ∀ t, Moves t (f t)) (b : Bool) (s : State) : Moves s (if b then f s else s) := by
  cases b
  · exact .refl
  · exact h s

theorem enablesStored_moves (c : Chan) (old : ChanCfg) (s : State) : ∃ v, Moves s v ∧ enablesStored c old s = evalPause c v :=
  ⟨_, ((ite_moves (discardMsg_moves c) (old.rx && !(s.chan c).cfg.rx) s).trans
    (ite_moves (txDisable_moves c) (old.tx && !(s.chan c).cfg.tx) _)).trans
    (ite_moves (letGo_moves c) (old.fc && !(s.chan c).cfg.fc) _), rfl⟩

theorem writeChcfg0_shape (w : Word) (s : State) : StepShape s (writeChcfg0 w s) := by
  unfold writeChcfg0
  dsimp only
  split
  · exact .moves (.quiet rfl rfl rfl rfl)
  · obtain ⟨v, hv, heq⟩ := enablesStored_moves s.chsel (s.chan s.chsel).cfg
      (s.setCfg s.chsel ((s.chan s.chsel).cfg.withEnables (wbit w 0) (wbit w 1) (wbit w 2)))
    exact .enables ⟨s.chsel, wbit w 0, wbit w 1, wbit w 2, s, v, .refl, hv, heq⟩

theorem writeChcfg_shape (n : Fin 8) (w : Word) (s : State) : StepShape s (writeChcfg n w s) := by
  by_cases hn : n = 0
  · rw [writeChcfg, if_pos hn]
    exact writeChcfg0_shape w s
  · refine .moves ?_
    by_cases hr : (s.chan s.chsel).cfg.rejects n w
    · rw [writeChcfg_of_rejects hn hr]; exact .quiet rfl rfl rfl rfl
    · rw [writeChcfg_of_not_rejects hn hr]; exact Move.one (.configure hn hr)

theorem StepShape.ite {p : Prop} [Decidable p] {s t u : State} (ht : StepShape s t) (hu : StepShape s u) :
    StepShape s (if p then t else u) := by
  split
  · exact ht
  · exact hu

theorem hostWrite_shape (off : BitVec 6) (w : Word) (s : State) : StepShape s (hostWrite off w s) := by
  unfold hostWrite
  dsimp only
  refine .ite (.moves (runCommand_moves ..)) ?_
  refine .ite (.moves (.quiet rfl rfl rfl rfl)) ?_
  refine .ite (.moves (.quiet rfl rfl rfl rfl)) ?_
  refine .ite (.moves (writeTimcfg_moves ..)) ?_
  refine .ite (.moves (writeRefdiv_moves ..)) ?_
  refine .ite (.moves (writePoolcfg_moves ..)) ?_
  refine .ite (.moves (writeRingcfg_moves ..)) ?_
  refine .ite (.moves (writeRxoffset_moves ..)) ?_
  refine .ite (.moves (.quiet rfl rfl rfl rfl)) ?_
  refine .ite (.moves (writeMapdata_moves ..)) ?_
  refine .ite (.moves (writeMaphdr_moves ..)) ?_
  refine .ite (.moves (writeChsel_moves ..)) ?_
  refine .ite (.moves (setSticky_moves ..)) ?_
  refine .ite (writeChcfg_shape ..) ?_
  refine .ite (.moves (writeTxdata_moves ..)) ?_
  exact .ite (.moves (.quiet rfl rfl rfl rfl)) (.moves .refl)

/-! ## Every step -/

theorem StepShape.gated {f : State → State} {s : State} (h : StepShape s (f s)) : StepShape s (outOfReset f s) := by
  unfold outOfReset
  split
  · exact h
  · exact .moves .refl

/-- A happening that acts where a condition holds. -/
theorem StepShape.guarded {p : Prop} [Decidable p] {s t : State} (h : Moves s t) : StepShape s (if p then t else s) := by
  split
  · exact .moves h
  · exact .moves .refl

/-- A command that answers a state formed by a function gated by RESETn. -/
theorem StepShape.of_next {o : Host.Outcome State Fault Refusal} {f : State → State} {s t : State} (h : o = .next t)
    (ho : o = .next (outOfReset f s)) (hf : StepShape s (f s)) : StepShape s t := by
  rw [ho] at h
  obtain rfl := Host.Outcome.next.inj h
  exact hf.gated

theorem readCause_moves (s : State) : Moves s (readCause s) := by
  unfold readCause
  dsimp only
  split
  · exact .quiet rfl rfl rfl rfl
  · next x _ =>
    have hack : Moves s (acknowledge x s) := by
      unfold acknowledge
      split
      · exact .refl
      · dsimp only
        split <;> exact .quiet rfl rfl rfl rfl
    exact hack.trans (.quiet rfl rfl rfl rfl)

theorem execRxdataRead_shape {s t : State} (h : execRxdataRead s = .next t) : StepShape s t := by
  refine .moves ?_
  unfold execRxdataRead at h
  split at h
  · split at h
    · obtain rfl := Host.Outcome.next.inj h
      exact .quiet rfl rfl rfl rfl
    · next d rest head =>
      split at h
      · obtain rfl := Host.Outcome.next.inj h
        exact .quiet rfl rfl rfl rfl
      · next hmore =>
        split at h
        · cases h
        · obtain rfl := Host.Outcome.next.inj h
          refine (Move.one (.readOffset (o := s.ring.readOff + 1) head fun hle => ?_)).trans (.quiet rfl rfl rfl rfl)
          omega
  · obtain rfl := Host.Outcome.next.inj h
    exact .refl

theorem exec_shape {i : Instr} {s t : State} (h : exec i s = .next t) : StepShape s t := by
  cases i with
  | resetAssert =>
    obtain rfl := Host.Outcome.next.inj h
    exact .moves (Move.one (.hardReset s))
  | resetRelease =>
    obtain rfl := Host.Outcome.next.inj h
    split
    · exact .moves .refl
    · exact .moves (.quiet rfl rfl rfl rfl)
  | softReset => exact .of_next h rfl (.moves (softResetCmd_moves s))
  | commit => exact .of_next h rfl (.moves (commitCmd_moves s))
  | cancel => exact .of_next h rfl (.moves (cancelCmd_moves s))
  | timingRestart => exact .of_next h rfl (.moves (timingRestartCmd_moves s))
  | release => exact .of_next h rfl (.moves (releaseCmd_moves s))
  | flush c => exact .of_next h rfl (.moves (flushCmd_moves c s))
  | hostPause c => exact .of_next h rfl (.moves ((setHostCause_moves true c s).trans (setCmd_moves ..)))
  | hostResume c => exact .of_next h rfl (.moves ((setHostCause_moves false c s).trans (setCmd_moves ..)))
  | unknownCommand code => exact .of_next h rfl (.moves (runCommand_moves code s))
  | timingEnable w => exact .of_next h rfl (.moves (writeTimcfg_moves w s))
  | timingDisable w => exact .of_next h rfl (.moves (writeTimcfg_moves w s))
  | rxEnableSet w => exact .of_next h rfl (writeChcfg0_shape w s)
  | rxEnableClear w => exact .of_next h rfl (writeChcfg0_shape w s)
  | txEnableSet w => exact .of_next h rfl (writeChcfg0_shape w s)
  | txEnableClear w => exact .of_next h rfl (writeChcfg0_shape w s)
  | fcEnableSet w => exact .of_next h rfl (writeChcfg0_shape w s)
  | fcEnableClear w => exact .of_next h rfl (writeChcfg0_shape w s)
  | chcfgWrite n w => exact .of_next h rfl (writeChcfg_shape n w s)
  | txdata c w => exact .of_next h rfl (.moves (writeTxdata_moves c w s))
  | mapdataWrite w => exact .of_next h rfl (.moves (writeMapdata_moves w s))
  | mapdataRead => exact .of_next h rfl (.moves (.quiet rfl rfl rfl rfl))
  | maphdrWrite w => exact .of_next h rfl (.moves (writeMaphdr_moves w s))
  | rxdataRead => exact execRxdataRead_shape h
  | rxoffsetWrite w => exact .of_next h rfl (.moves (writeRxoffset_moves w s))
  | causeRead => exact .of_next h rfl (.moves (readCause_moves s))
  | chstickyWrite w => exact .of_next h rfl (.moves (setSticky_moves ..))
  | cmdstatWrite w => exact .of_next h rfl (.moves (.quiet rfl rfl rfl rfl))
  | poolcfgWrite w => exact .of_next h rfl (.moves (writePoolcfg_moves w s))
  | ringcfgWrite w => exact .of_next h rfl (.moves (writeRingcfg_moves w s))
  | registerWrite off w => exact .of_next h rfl (hostWrite_shape off w s)
  | syncPulse => exact .of_next h rfl (.moves (syncPulseStep_moves s))
  | frameBoundary pulse => exact .of_next h rfl (.moves (frameBoundaryStep_moves pulse s))
  | localFramePeriodEnd sense => exact .of_next h rfl (.moves (periodEnd_moves sense s))
  | txSlot => exact .of_next h rfl (.moves (txSlotStep_moves s))
  | echoResult => exact .of_next h rfl (.moves (echoStep_moves s))
  | rxWord => exact .of_next h rfl (.moves (rxWordStep_moves s))
  | listenWindow => exact .of_next h rfl (.guarded (listenStep_moves s))
  | holdoffLimit => exact .of_next h rfl (.guarded (holdoffStep_moves s))
  | flywheelExpiry => exact .of_next h rfl (.guarded (flywheelStep_moves s))
  | clockLost => exact .of_next h rfl (.guarded (clockWatch_moves s))
  | debounceComplete =>
    refine .of_next h rfl (.guarded (Moves.trans ?_ (sampleLine_moves (!s.tim.lineUp) _)))
    exact .quiet rfl rfl rfl rfl
  | gapExpiry c => exact .of_next h rfl (.guarded (gapStep_moves c s))
  | refresh c => exact .of_next h rfl (.guarded (refreshStep_moves c s))
  | holdExpired c => exact .of_next h rfl (.guarded (holdStep_moves c s))
  | peerAbsent c => exact .of_next h rfl (.guarded (peerStep_moves s.map.active c s))
  | readyTimeout => exact .of_next h rfl (.guarded (readyStep_moves s))
  | switch => exact .of_next h rfl (.guarded (switchBanks_moves s))
  | hwclkRisingEdge sync data => exact .of_next h rfl (.moves (risingEdge_moves sync data s))

theorem busRead_shape {off : BitVec 6} {s t : State} (h : busRead off s = .next t) : StepShape s t := by
  rcases busRead_cases off s with ⟨-, hr⟩ | ⟨-, -, hr⟩ | ⟨-, -, hr⟩ | ⟨-, -, hr⟩ | ⟨-, -, -, -, hr⟩ <;> rw [hr] at h
  · obtain rfl := Host.Outcome.next.inj h
    exact .moves (.quiet rfl rfl rfl rfl)
  · exact execRxdataRead_shape h
  · obtain rfl := Host.Outcome.next.inj h
    exact .moves (.quiet rfl rfl rfl rfl)
  · obtain rfl := Host.Outcome.next.inj h
    exact .moves (readCause_moves s)
  · obtain rfl := Host.Outcome.next.inj h
    exact .moves (.quiet rfl rfl rfl rfl)

theorem takePin_shape {p : PinChange} {s t : State} (h : takePin p s = .next t) : StepShape s t := by
  rcases takePin_cases p s with ⟨b, v, l, d, hp⟩ | ⟨b, -, hp⟩ | ⟨b, -, hp⟩ <;> rw [hp] at h
  · obtain rfl := Host.Outcome.next.inj h
    exact .moves (.quiet rfl rfl rfl rfl)
  · exact .after (t := { s with bus := b }) (.quiet rfl rfl rfl rfl) (busRead_shape h)
  · exact .after (t := { s with bus := b }) (.quiet rfl rfl rfl rfl)
      (.of_next h rfl (hostWrite_shape s.bus.addr s.bus.data _))

/-- Every step that answers a next state is a row of moves or a write of the enables. -/
theorem step_shape {s t : State} (h : step s = .next t) : StepShape s t := by
  rcases step_cases s with ⟨c, rest, -, hs⟩ | ⟨p, rest, -, -, hs⟩ | ⟨-, -, hs⟩ <;> rw [hs] at h
  · exact .after (t := { s with pending := rest }) (.quiet rfl rfl rfl rfl) (exec_shape h)
  · exact .after (t := { s with inputs := rest }) (.quiet rfl rfl rfl rfl) (takePin_shape h)
  · exact .of_next h rfl (.moves (refclkTick_moves s))

end Sys2Proof.Machine
end

section
/-! PROOFS. The laws of the whole part: what every move keeps, every step keeps, a write of the enables with its evaluation of the
local pause included; the state after hard reset meets them all; and no step from a sound state stops. -/

namespace Sys2Proof.Machine

open Sys2Proof

/-! ## Steps that keep a law -/

/-- A law that every move keeps, and a write of the enables with an evaluation of the local pause, every step keeps. -/
theorem step_keeps {P : State → Prop} (hmove : ∀ s t, Move s t → P s → P t)
    (henables : ∀ u c rx tx fc, P u → P (u.setCfg c ((u.chan c).cfg.withEnables rx tx fc)))
    (hpause : ∀ u c, P u → P (evalPause c u)) {s t : State} (h : step s = .next t) (hs : P s) : P t := by
  cases step_shape h with
  | moves hm => exact hm.keep hmove hs
  | enables he =>
    obtain ⟨c, rx, tx, fc, u, v, hu, hv, rfl⟩ := he
    exact hpause v c (hv.keep hmove (henables u c rx tx fc (hu.keep hmove hs)))

/-- A law of the receive units, the held counts, the pool and the ring stays where a channel's other parts change. -/
theorem sameRx_setCfg (s : State) (c : Chan) (g : ChanCfg) (d : Chan) :
    ((s.setCfg c g).chan d).rx = (s.chan d).rx ∧ ((s.setCfg c g).chan d).held = (s.chan d).held :=
  ⟨setChan_proj Channel.rx (x := { s.chan c with cfg := g }) rfl d,
    setChan_proj Channel.held (x := { s.chan c with cfg := g }) rfl d⟩

theorem sameRx_evalPause (s : State) (c d : Chan) :
    ((evalPause c s).chan d).rx = (s.chan d).rx ∧ ((evalPause c s).chan d).held = (s.chan d).held := by
  rw [evalPause_eq]
  exact ⟨setChan_proj Channel.rx (settled_rx _) d, setChan_proj Channel.held (settled_held _) d⟩

/-! ## The configuration -/

theorem withEnables_inRange {g : ChanCfg} (rx tx fc : Bool) (h : g.inRange) : (g.withEnables rx tx fc).inRange := h

theorem setCfg_configLaw {s : State} {c : Chan} {g : ChanCfg} (hg : (s.chan c).cfg.inRange → g.inRange) (h : s.configLaw) :
    (s.setCfg c g).configLaw := by
  obtain ⟨hranges, hlimits⟩ := (configLaw_iff s).mp h
  refine (configLaw_iff _).mpr ⟨fun d => ?_, hlimits⟩
  by_cases hd : d = c
  · subst hd; rw [chan_setCfg_same]; exact hg (hranges d)
  · rw [chan_setCfg_other s g hd]; exact hranges d

theorem evalPause_configLaw {s : State} (c : Chan) (h : s.configLaw) : (evalPause c s).configLaw := by
  obtain ⟨hranges, hlimits⟩ := (configLaw_iff s).mp h
  rw [evalPause_eq]
  refine (configLaw_iff _).mpr ⟨fun d => ?_, hlimits⟩
  rw [setChan_proj Channel.cfg (settled_cfg _)]
  exact hranges d

/-- Settles O55: every move keeps the ranges, and the enables have none. -/
theorem stepKeepsConfigLaw : Obligations.StepKeepsConfigLaw := by
  unfold Obligations.StepKeepsConfigLaw
  intro s t hs h
  exact step_keeps (fun _ _ hm => hm.keeps_configLaw) (fun _ _ rx tx fc => setCfg_configLaw (withEnables_inRange rx tx fc))
    (fun _ c => evalPause_configLaw c) h hs

/-! ## The local pause -/

/-- Causes and owed words, with the configuration law they lean on. -/
def State.causesHold (s : State) : Prop := s.configLaw ∧ s.causesLaw

theorem Move.keeps_causesHold {s t : State} (h : Move s t) (hs : s.causesHold) : t.causesHold :=
  ⟨h.keeps_configLaw hs.1, h.keeps_causesLaw hs.1 hs.2⟩

theorem enables_causesHold {s : State} (c : Chan) (rx tx fc : Bool) (h : s.causesHold) :
    (s.setCfg c ((s.chan c).cfg.withEnables rx tx fc)).causesHold :=
  ⟨setCfg_configLaw (withEnables_inRange rx tx fc) h.1,
    setChan_causesLaw (x := { s.chan c with cfg := (s.chan c).cfg.withEnables rx tx fc }) h.2
      (fun hf => ⟨hf.pause, hf.resume, hf.pool⟩) fun hq => ⟨hq.on, hq.off⟩⟩

theorem evalPause_causesHold {s : State} (c : Chan) (h : s.causesHold) : (evalPause c s).causesHold := by
  refine ⟨evalPause_configLaw c h.1, ?_⟩
  rw [evalPause_eq]
  exact setChan_causesLaw h.2 settled_flowFits settled_quotaFits

/-- An evaluation of the local pause of c makes it what its enables and causes want, where every other channel's is. -/
theorem evalPause_pauseKept {s : State} {c : Chan} (h : ∀ d, d ≠ c → (s.chan d).pauseKept) (d : Chan) :
    ((evalPause c s).chan d).pauseKept := by
  rw [evalPause_eq]
  by_cases hd : d = c
  · subst hd; rw [chan_setChan_same]; exact settled_pauseKept _
  · rw [chan_setChan_other s _ hd]; exact h d hd

theorem step_pauseKept {s t : State} (h : step s = .next t) (hs : ∀ d, (s.chan d).pauseKept) (d : Chan) :
    (t.chan d).pauseKept := by
  cases step_shape h with
  | moves hm => exact hm.keep (P := fun s => (s.chan d).pauseKept) (fun _ _ hmove => hmove.keeps_pauseKept d) (hs d)
  | enables he =>
    obtain ⟨c, rx, tx, fc, u, v, hu, hv, rfl⟩ := he
    refine evalPause_pauseKept (fun e he => ?_) d
    have hkeep : ∀ s t, Move s t → (s.chan e).pauseKept → (t.chan e).pauseKept := fun _ _ hmove => hmove.keeps_pauseKept e
    refine hv.keep hkeep ?_
    rw [chan_setCfg_other u _ he]
    exact hu.keep hkeep (hs e)

/-- Settles O57: every move keeps the causes and the local pause they make; a write of the enables keeps the causes, and its
evaluation settles the pause of its channel. -/
theorem stepKeepsPauseLaw : Obligations.StepKeepsPauseLaw := by
  unfold Obligations.StepKeepsPauseLaw
  intro s t hcfg hpause h
  obtain ⟨hcauses, hkept⟩ := (pauseLaw_iff s).mp hpause
  have hholds : t.causesHold := step_keeps (fun _ _ hm => hm.keeps_causesHold) (fun _ c rx tx fc => enables_causesHold c rx tx fc)
    (fun _ c => evalPause_causesHold c) h ⟨hcfg, hcauses⟩
  exact (pauseLaw_iff t).mpr ⟨hholds.2, step_pauseKept h hkept⟩

/-! ## Transmit lists -/

theorem setChan_txLaw {s : State} {c : Chan} {x : Channel} (hx : x.tx = (s.chan c).tx) (h : s.txLaw) : (s.setChan c x).txLaw :=
  fun d => setChan_proj Channel.tx hx d ▸ h d

/-- Settles O58: every move keeps the bounds of the lists, and the enables do not touch them. -/
theorem stepKeepsTxLaw : Obligations.StepKeepsTxLaw := by
  unfold Obligations.StepKeepsTxLaw
  intro s t hs h
  refine step_keeps (fun _ _ hm => hm.keeps_txLaw)
    (fun u c rx tx fc => setChan_txLaw (x := { u.chan c with cfg := (u.chan c).cfg.withEnables rx tx fc }) rfl)
    (fun u c hu => ?_) h hs
  rw [evalPause_eq]
  exact setChan_txLaw (settled_tx _) hu

/-! ## The ring and the bytes of the pool -/

/-- Settles O59: every move keeps both laws, and the enables touch neither. -/
theorem stepKeepsRingAndMemoryLaws : Obligations.StepKeepsRingAndMemoryLaws := by
  unfold Obligations.StepKeepsRingAndMemoryLaws
  refine ⟨fun s t hs h => ?ring, fun s t hs h => ?mem⟩
  case ring =>
    exact step_keeps (fun _ _ hm => hm.keeps_ringLaw)
      (fun u c _ _ _ hu => ringLaw_congr hu rfl fun d => congrArg _ (sameRx_setCfg u c _ d).1)
      (fun u c hu => ringLaw_congr hu (by rw [evalPause_eq]; rfl) fun d => congrArg _ (sameRx_evalPause u c d).1) h hs
  case mem =>
    refine step_keeps (fun _ _ hm => hm.keeps_memLaw) (fun _ _ _ _ _ hu => hu) (fun u c hu => ?_) h hs
    rw [evalPause_eq]
    exact hu

/-! ## Blocks -/

theorem step_blocksFit {s t : State} (h : step s = .next t) (hs : BlocksFit s) : BlocksFit t :=
  step_keeps (fun _ _ hm => hm.keeps_blocksFit) (fun u c _ _ _ hu => hu.of_units rfl rfl rfl (sameRx_setCfg u c _))
    (fun u c hu => hu.of_units (by rw [evalPause_eq]; rfl) (by rw [evalPause_eq]; rfl) (by rw [evalPause_eq]; rfl)
      (sameRx_evalPause u c)) h hs

theorem step_offsetLaw {s t : State} (h : step s = .next t) (hs : s.offsetLaw) : t.offsetLaw :=
  step_keeps (fun _ _ hm => hm.keeps_offsetLaw) (fun _ _ _ _ _ hu => offsetLaw_congr hu rfl rfl)
    (fun u c hu => offsetLaw_congr hu (by rw [evalPause_eq]; rfl) (by rw [evalPause_eq]; rfl)) h hs

theorem step_sound {s t : State} (h : step s = .next t) (hs : s.sound) : t.sound :=
  ⟨(poolLaw_iff t).mpr (step_blocksFit h ((poolLaw_iff s).mp hs.1)), step_offsetLaw h hs.2⟩

/-- Blocks counted over the ring's entries are those counted over the channels of the entries. -/
theorem sum_over_chans (entries : List Descriptor) (f : Descriptor → Nat) :
    (channels.map fun c => ((entries.filter fun d => decide (d.chan = c)).map f).sum).sum = (entries.map f).sum := by
  induction entries with
  | nil => simp
  | cons d rest ih =>
    have hone : (channels.map fun c => if d.chan = c then f d else 0).sum = f d := by
      generalize d.chan = c0
      revert c0
      generalize f d = n
      intro c0
      fin_cases c0 <;> simp [channels]
    have hsplit : ∀ c, (((d :: rest).filter fun e => decide (e.chan = c)).map f).sum =
        (if d.chan = c then f d else 0) + ((rest.filter fun e => decide (e.chan = c)).map f).sum := by
      intro c
      by_cases hc : d.chan = c <;> simp [hc]
    simp only [hsplit, List.sum_map_add, hone, ih, List.map_cons, List.sum_cons]

/-- The free count and the held counts of the channels sum to the 128 blocks (R100, R101). -/
theorem BlocksFit.conserved {s : State} (h : BlocksFit s) :
    s.pool.free.length + (channels.map fun c => (s.chan c).held).sum = 128 := by
  have hring : (channels.map s.ringHeld).sum = s.ringChains.length := by
    rw [State.ringChains, List.length_flatMap]
    exact sum_over_chans s.ring.entries fun d => (s.pool.chain d.first).length
  have hopen : (channels.map fun c => (s.openChain c).length).sum = (channels.flatMap s.openChain).length := by
    rw [List.length_flatMap]
  have hcount := h.count
  rw [allBlocks_eq, List.length_append, List.length_append] at hcount
  have hheld : (channels.map fun c => (s.chan c).held) = channels.map fun c => (s.openChain c).length + s.ringHeld c :=
    List.map_congr_left fun c _ => h.held c
  rw [hheld, List.sum_map_add, hring, hopen]
  omega

/-! ## No step stops -/

/-- A read of the head message below its end finds its byte. -/
theorem messageByte_isSome {s : State} (h : BlocksFit s) {d : Descriptor} (hd : d ∈ s.ring.entries) {o : Nat}
    (ho : o < d.length) : (s.messageByte d o).isSome = true := by
  have hlen := h.lengths d hd
  have hplace : o / 32 < (s.pool.chain d.first).length := by omega
  rw [messageByte_of_chain (List.getElem?_eq_getElem hplace)]
  rfl

theorem execRxdataRead_next {s : State} (h : BlocksFit s) (ho : s.offsetLaw) : ∃ t, execRxdataRead s = .next t := by
  unfold execRxdataRead
  split
  · split
    · exact ⟨_, rfl⟩
    · next d rest head =>
      split
      · exact ⟨_, rfl⟩
      · next hmore =>
        have hle := ((offsetLaw_iff s).mp ho).2 d rest head
        obtain ⟨b, hb⟩ := Option.isSome_iff_exists.mp
          (messageByte_isSome h (d := d) (o := s.ring.readOff) (head ▸ List.mem_cons_self) (by omega))
        rw [hb]
        exact ⟨_, rfl⟩
  · exact ⟨_, rfl⟩

/-- RXDATA_READ alone can stop. -/
theorem exec_next_or_rxdataRead (i : Instr) (s : State) : (∃ t, exec i s = .next t) ∨ exec i s = execRxdataRead s := by
  cases i with
  | rxdataRead => exact .inr rfl
  | _ => exact .inl ⟨_, rfl⟩

theorem exec_next {s : State} (h : BlocksFit s) (ho : s.offsetLaw) (i : Instr) : ∃ t, exec i s = .next t := by
  rcases exec_next_or_rxdataRead i s with hnext | hread
  · exact hnext
  · rw [hread]; exact execRxdataRead_next h ho

theorem busRead_next {s : State} (h : BlocksFit s) (ho : s.offsetLaw) (off : BitVec 6) : ∃ t, busRead off s = .next t := by
  rcases busRead_cases off s with ⟨-, hr⟩ | ⟨-, -, hr⟩ | ⟨-, -, hr⟩ | ⟨-, -, hr⟩ | ⟨-, -, -, -, hr⟩ <;> rw [hr]
  · exact ⟨_, rfl⟩
  · exact execRxdataRead_next h ho
  · exact ⟨_, rfl⟩
  · exact ⟨_, rfl⟩
  · exact ⟨_, rfl⟩

/-- A state with the same channels, pool and ring is as sound. -/
theorem sound_congr {s t : State} (h : s.sound) (hchan : t.chans = s.chans) (hpool : t.pool = s.pool)
    (hring : t.ring = s.ring) : BlocksFit t ∧ t.offsetLaw :=
  ⟨((poolLaw_iff s).mp h.1).of_units (by rw [hpool]) (by rw [hpool]) (by rw [hring])
      fun c => by rw [chan_congr hchan]; exact ⟨rfl, rfl⟩,
    offsetLaw_congr h.2 (by rw [hring]) (by rw [hring])⟩

theorem step_next {s : State} (h : s.sound) : ∃ t, step s = .next t := by
  rcases step_cases s with ⟨c, rest, -, hs⟩ | ⟨p, rest, -, -, hs⟩ | ⟨-, -, hs⟩ <;> rw [hs]
  · obtain ⟨hfit, hoff⟩ := sound_congr (t := { s with pending := rest }) h rfl rfl rfl
    exact exec_next hfit hoff c
  · rcases takePin_cases p { s with inputs := rest } with ⟨b, v, l, d, hp⟩ | ⟨b, -, hp⟩ | ⟨b, -, hp⟩ <;> rw [hp]
    · exact ⟨_, rfl⟩
    · obtain ⟨hfit, hoff⟩ := sound_congr (t := { s with inputs := rest, bus := b }) h rfl rfl rfl
      exact busRead_next hfit hoff _
    · exact ⟨_, rfl⟩
  · exact ⟨_, rfl⟩

/-- Settles O60: the counts by `BlocksFit.conserved`, the step by `step_next`, its law by `step_sound`. -/
theorem blocksAreConservedAndNoStepStops : Obligations.BlocksAreConservedAndNoStepStops := by
  unfold Obligations.BlocksAreConservedAndNoStepStops
  intro s hs
  obtain ⟨t, ht⟩ := step_next hs
  exact ⟨((poolLaw_iff s).mp hs.1).conserved, t, ht, step_sound ht hs⟩

/-! ## The state after hard reset -/

theorem reset_chan (c : Chan) : State.reset.chan c = {} := by
  show (Vector.replicate 8 ({} : Channel))[c.val] = {}
  simp

theorem unusedZero_replicate (n : Fin 4) : ({ len := n } : Bank).unusedZero := fun k _ => by
  simp [Vector.get_replicate]

theorem reset_entry_mode (k : Nat) : (State.reset.map.active.entry k).mode = .unused := by
  simp [Bank.entry, State.reset]

theorem reset_mapLaw : State.reset.mapLaw := by
  refine ⟨by simp [State.reset], fun k _ => reset_entry_mode k, fun c hrx => ?_, unusedZero_replicate 3, unusedZero_replicate 3, ?_⟩
  · rw [reset_chan] at hrx
    exact absurd hrx (by decide)
  · intro hpending
    exact absurd hpending (by decide)

theorem reset_causesLaw : State.reset.causesLaw :=
  causesLaw_of_fresh List.length_finRange rfl (by decide) fun c => by rw [reset_chan]; exact ⟨by decide, rfl⟩

theorem reset_configLaw : State.reset.configLaw :=
  (configLaw_iff _).mpr ⟨fun c => by rw [reset_chan]; exact inRange_default,
    by simp [State.limitsLaw, Timing.inRange, State.reset]⟩

theorem reset_ringLaw : State.reset.ringLaw := by
  refine ⟨?_, by decide⟩
  have hnone : ∀ c, (State.reset.chan c).rx.reserves = false := fun c => by rw [reset_chan]; rfl
  simp only [hnone, List.countP_false]
  rfl

/-- Settles O54: each law from its form for a fresh state. -/
theorem resetSatisfiesTheLaws : Obligations.ResetSatisfiesTheLaws := by
  unfold Obligations.ResetSatisfiesTheLaws
  refine ⟨reset_configLaw, reset_mapLaw, ⟨fun h => absurd rfl h, fun x h => by cases h⟩, ?pause, ?tx, reset_ringLaw,
    reset_memory_wf, ?blocks, offsetLaw_of_zero rfl⟩
  case pause => exact (pauseLaw_iff _).mpr ⟨reset_causesLaw, fun c => by rw [reset_chan]; rfl⟩
  case tx => exact fun c => by rw [reset_chan]; exact listLaw_empty
  case blocks => exact (poolLaw_iff _).mpr (blocksFit_of_fresh rfl rfl rfl fun c => by rw [reset_chan]; exact ⟨rfl, rfl⟩)

end Sys2Proof.Machine
end

section
/-! PROOFS. The laws of the banks, of a pending commit and of the slot in progress (O56): what they say of the map unit, the timing
state and the slot; which changes of the three keep them; and that every operation makes such a change. -/

namespace Sys2Proof.Machine

open Sys2Proof

/-! ## Enables -/

/-- No channel of t has rx_enable or fc_enable set that has it clear in s. -/
def EnablesWithin (s t : State) : Prop :=
  ∀ c, ((t.chan c).cfg.rx = true → (s.chan c).cfg.rx = true) ∧ ((t.chan c).cfg.fc = true → (s.chan c).cfg.fc = true)

theorem EnablesWithin.refl (s : State) : EnablesWithin s s := fun _ => ⟨id, id⟩

theorem EnablesWithin.trans {s t u : State} (h : EnablesWithin s t) (h' : EnablesWithin t u) : EnablesWithin s u :=
  fun c => ⟨fun hu => (h c).1 ((h' c).1 hu), fun hu => (h c).2 ((h' c).2 hu)⟩

theorem EnablesWithin.of_cfg {s t : State} (h : ∀ c, (t.chan c).cfg = (s.chan c).cfg) : EnablesWithin s t :=
  fun c => by rw [h c]; exact ⟨id, id⟩

theorem Move.enablesWithin {s t : State} (h : Move s t) : EnablesWithin s t := by
  rcases h.sameRecords_or with hsame | ⟨c, u, -, rfl⟩ | ⟨c, on, rfl⟩ | ⟨c, n, w, hn, -, rfl⟩ | rfl | rfl
  · exact .of_cfg hsame.cfg
  · exact .of_cfg (setChan_proj Channel.cfg (x := { s.chan c with tx := u }) rfl)
  · intro d
    have hrx := setChan_proj (fun x => x.cfg.rx) (s := s) (c := c)
      (x := { s.chan c with cfg := { (s.chan c).cfg with tx := on } }) rfl d
    have hfc := setChan_proj (fun x => x.cfg.fc) (s := s) (c := c)
      (x := { s.chan c with cfg := { (s.chan c).cfg with tx := on } }) rfl d
    rw [setCfg_eq]
    exact ⟨fun hu => hrx ▸ hu, fun hu => hfc ▸ hu⟩
  · intro d
    obtain ⟨hrx, hfc⟩ := ChanCfg.written_enables (s.chan c).cfg hn w
    rw [← configured_cfg] at hrx hfc
    have hrx' := setChan_proj (fun x => x.cfg.rx) hrx d
    have hfc' := setChan_proj (fun x => x.cfg.fc) hfc d
    exact ⟨fun hu => hrx' ▸ hu, fun hu => hfc' ▸ hu⟩
  · exact .of_cfg fun c => by rw [softReset_chan]
  · intro c
    rw [hardReset_chan]
    exact ⟨fun hu => absurd hu (by decide), fun hu => absurd hu (by decide)⟩

theorem Moves.enablesWithin {s t : State} (h : Moves s t) : EnablesWithin s t :=
  h.keep (P := EnablesWithin s) (fun _ _ hm hs => hs.trans hm.enablesWithin) (.refl s)

theorem EnablesWithin.returnPaths {s t : State} (h : EnablesWithin s t) {b : Bank} (hs : s.returnPaths b) : t.returnPaths b :=
  fun c hrx hfc => hs c ((h c).1 hrx) ((h c).2 hfc)

/-! ## The parts of the laws -/

/-- What the slot in progress keeps to, under a timing state and a frame length (R8). -/
def SlotPhase.fits (p : SlotPhase) (st : TimState) (slots : Nat) : Prop :=
  (p ≠ .idle → st = .locked ∨ st = .driving) ∧ ∀ x, p = .inSlot x → x.number < slots ∧ x.bits.length ≤ 11

theorem fits_idle (st : TimState) (slots : Nat) : SlotPhase.idle.fits st slots :=
  ⟨fun h => absurd rfl h, fun _ h => by cases h⟩

theorem fits_frameDone {st : TimState} {slots : Nat} (h : st = .locked ∨ st = .driving) : SlotPhase.frameDone.fits st slots :=
  ⟨fun _ => h, fun _ h => by cases h⟩

theorem fits_inSlot {st : TimState} {slots : Nat} {x : Slot} (h : st = .locked ∨ st = .driving) (hx : x.number < slots)
    (hbits : x.bits.length ≤ 11) : (SlotPhase.inSlot x).fits st slots :=
  ⟨fun _ => h, fun y hy => by cases hy; exact ⟨hx, hbits⟩⟩

theorem slotLaw_iff (s : State) : s.slotLaw ↔ s.slot.fits s.tim.st s.map.active.slots := Iff.rfl

/-- What a bank keeps to once COMMIT has checked it (R49). -/
def State.bankFits (s : State) (b : Bank) : Prop := b.withinFrame ∧ s.returnPaths b

/-- The timing states in which a commit may be pending (R50). -/
def TimState.mayWait (st : TimState) : Prop := st = .locked ∨ st = .driving ∨ st = .flywheel

theorem mayWait_iff (st : TimState) : st.mayWait ↔ st.holdsSwitch = true := by
  cases st <;> simp [TimState.mayWait, TimState.holdsSwitch]

/-- The laws of the banks, of a pending commit and of the slot in progress, in their parts. -/
structure MapFits (s : State) : Prop where
  enable : s.tim.enable = false ↔ s.tim.st = .off
  active : s.bankFits s.map.active
  activeZero : s.map.active.unusedZero
  shadowZero : s.map.shadow.unusedZero
  waits : s.map.commit = .pending → s.tim.st.mayWait
  len : s.map.commit = .pending → s.map.shadow.len = s.map.active.len
  shadow : s.map.commit = .pending → s.bankFits s.map.shadow
  slot : s.slot.fits s.tim.st s.map.active.slots

theorem mapFits_iff (s : State) : MapFits s ↔ s.mapLaw ∧ s.slotLaw := by
  constructor
  · intro h
    exact ⟨⟨h.enable, h.active.1, h.active.2, h.activeZero, h.shadowZero,
      fun hp => ⟨h.waits hp, h.len hp, h.shadow hp⟩⟩, h.slot⟩
  · rintro ⟨⟨henable, hwithin, hpaths, hactive, hshadow, hpending⟩, hslot⟩
    exact ⟨henable, ⟨hwithin, hpaths⟩, hactive, hshadow, fun hp => (hpending hp).1, fun hp => (hpending hp).2.1,
      fun hp => (hpending hp).2.2, hslot⟩

theorem MapFits.slots_shadow {s : State} (h : MapFits s) (hp : s.map.commit = .pending) :
    s.map.shadow.slots = s.map.active.slots := by
  rw [Bank.slots, Bank.slots, h.len hp]

theorem Bank.slots_pos (b : Bank) : 0 < b.slots := by
  rw [Bank.slots]; omega

theorem MapFits.idle {s : State} (h : MapFits s) (hl : s.tim.st ≠ .locked) (hd : s.tim.st ≠ .driving) : s.slot = .idle := by
  by_contra hs
  exact (h.slot.1 hs).elim hl hd

theorem MapFits.not_pending {s : State} (h : MapFits s) (hst : ¬ s.tim.st.mayWait) : s.map.commit ≠ .pending :=
  fun hp => hst (h.waits hp)

theorem MapFits.enabled {s : State} (h : MapFits s) (hst : s.tim.st ≠ .off) : s.tim.enable = true := by
  have henable := h.enable
  cases he : s.tim.enable
  · exact absurd (henable.mp he) hst
  · rfl

/-! ## Changes that keep the laws -/

/-- The map unit from m to n: its banks kept, with no commit begun, or a pending commit switched (R49). -/
inductive MapTurn (m n : MapUnit) : Prop where
  | kept (active : n.active = m.active) (shadow : n.shadow = m.shadow) (commit : n.commit = .pending → m.commit = .pending)
  | switched (pending : m.commit = .pending) (active : n.active = m.shadow) (shadow : n.shadow = m.shadow)
      (commit : n.commit = .idle)

theorem MapTurn.refl (m : MapUnit) : MapTurn m m := .kept rfl rfl id

theorem mapTurn_afterSwitch (m : MapUnit) : MapTurn m (if m.commit = .pending then afterSwitch m else m) := by
  split
  · next h => exact .switched h rfl rfl rfl
  · exact .refl m

theorem MapTurn.pending {m n : MapUnit} (h : MapTurn m n) (hn : n.commit = .pending) : m.commit = .pending := by
  cases h with
  | kept _ _ commit => exact commit hn
  | switched pending => exact pending

/-- A change of the map unit of that kind, of the timing state and of the slot keeps the laws where the timing state fits the enable,
a commit still pending and the slot. -/
theorem MapFits.turn {s t : State} (h : MapFits s) (hm : EnablesWithin s t) (hmap : MapTurn s.map t.map)
    (henable : t.tim.enable = false ↔ t.tim.st = .off) (hwaits : t.map.commit = .pending → t.tim.st.mayWait)
    (hslot : t.slot.fits t.tim.st s.map.active.slots) : MapFits t := by
  have hfits : ∀ b, s.bankFits b → t.bankFits b := fun b hb => ⟨hb.1, hm.returnPaths hb.2⟩
  cases hmap with
  | kept active shadow commit =>
    refine ⟨henable, ?_, ?_, ?_, hwaits, fun hp => ?_, fun hp => ?_, ?_⟩
    · rw [active]; exact hfits _ h.active
    · rw [active]; exact h.activeZero
    · rw [shadow]; exact h.shadowZero
    · rw [active, shadow]; exact h.len (commit hp)
    · rw [shadow]; exact hfits _ (h.shadow (commit hp))
    · rw [active]; exact hslot
  | switched pending active shadow commit =>
    have hnot : t.map.commit ≠ .pending := by rw [commit]; decide
    refine ⟨henable, ?_, ?_, ?_, hwaits, fun hp => absurd hp hnot, fun hp => absurd hp hnot, ?_⟩
    · rw [active]; exact hfits _ (h.shadow pending)
    · rw [active]; exact h.shadowZero
    · rw [shadow]; exact h.shadowZero
    · rw [active, h.slots_shadow pending]; exact hslot

/-- What of the state the laws read beside the enables. -/
def State.place (s : State) : (Bool × TimState) × (Bank × Bank × CommitState) × SlotPhase :=
  ((s.tim.enable, s.tim.st), (s.map.active, s.map.shadow, s.map.commit), s.slot)

theorem MapFits.same {s t : State} (h : MapFits s) (hm : EnablesWithin s t) (hplace : t.place = s.place) : MapFits t := by
  simp only [State.place, Prod.mk.injEq] at hplace
  obtain ⟨⟨henable, hst⟩, ⟨hactive, hshadow, hcommit⟩, hslot⟩ := hplace
  refine h.turn hm (.kept hactive hshadow fun hp => hcommit ▸ hp) ?_ (fun hp => ?_) ?_
  · rw [henable, hst]; exact h.enable
  · rw [hst]; exact h.waits (hcommit ▸ hp)
  · rw [hslot, hst]; exact h.slot

/-- Of the same map unit and enable, another timing state that runs and another slot. -/
theorem MapFits.running {s t : State} (h : MapFits s) (hm : EnablesWithin s t) (hmap : MapTurn s.map t.map)
    (henable : t.tim.enable = s.tim.enable) (hs : s.tim.st ≠ .off) (ht : t.tim.st ≠ .off)
    (hwaits : t.map.commit = .pending → t.tim.st.mayWait) (hslot : t.slot.fits t.tim.st s.map.active.slots) : MapFits t := by
  refine h.turn hm hmap ?_ hwaits hslot
  rw [henable, h.enabled hs]
  exact ⟨fun he => absurd he (by decide), fun hoff => absurd hoff ht⟩

/-! ## Operations of the channels -/

theorem discardMsg_place (c : Chan) (s : State) : (discardMsg c s).place = s.place := by
  unfold discardMsg
  split
  · simp [State.place]
  · split <;> rfl

theorem evalQuota_place (c : Chan) (s : State) : (evalQuota c s).place = s.place := by
  rw [evalQuota_eq]; rfl

theorem evalPause_place (c : Chan) (s : State) : (evalPause c s).place = s.place := by
  rw [evalPause_eq]; rfl

theorem evalPoolLow_place (s : State) : (evalPoolLow s).place = s.place := by
  have hplace := congrArg State.place (evalPoolLow_frame s)
  exact hplace

theorem closeMsg_place (c : Chan) (cause : MsgStatus) (s : State) : (closeMsg c cause s).place = s.place := by
  rw [closeMsg_joined]; rfl

theorem gapStep_place (c : Chan) (s : State) : (gapStep c s).place = s.place := by
  rw [gapStep_eq]; rfl

theorem refreshStep_place (c : Chan) (s : State) : (refreshStep c s).place = s.place := by
  rw [refreshStep_eq]; rfl

theorem holdStep_place (c : Chan) (s : State) : (holdStep c s).place = s.place := by
  rw [holdStep_eq]; split <;> rfl

theorem peerStep_place (worked : Bank) (c : Chan) (s : State) : (peerStep worked c s).place = s.place := by
  rw [peerStep_eq]; rfl

theorem readyStep_place (s : State) : (readyStep s).place = s.place := by
  unfold readyStep; split <;> rfl

theorem reportDrop_place (c : Chan) (d : DropReason) (s : State) : (reportDrop c d s).place = s.place := rfl

theorem closeWritten_place (c : Chan) (s : State) : (closeWritten c s).place = s.place := by
  unfold closeWritten
  dsimp only
  split
  · split <;> rfl
  · rfl

theorem writeTxdata_place (c : Chan) (w : Word) (s : State) : (writeTxdata c w s).place = s.place := by
  unfold writeTxdata
  dsimp only
  split
  · rw [closeWritten_place]; split <;> rfl
  · split <;> rfl

theorem txDisable_place (c : Chan) (s : State) : (txDisable c s).place = s.place := by
  unfold txDisable
  dsimp only
  split
  · rfl
  · split <;> rfl

theorem freshFrame_place (s : State) : (freshFrame s).place = s.place :=
  takeAll_eq State.place (fun f hf t => by obtain ⟨c, -, rfl⟩ := List.mem_map.mp hf; rfl) s

theorem trafficAbort_place (s : State) : (trafficAbort s).place = s.place := by
  have hplace := congrArg State.place (trafficAbort_frame s)
  exact hplace

/-! ## Host writes -/

theorem flushCmd_place (c : Chan) (s : State) : (flushCmd c s).place = s.place := by
  unfold flushCmd
  dsimp only
  refine Eq.trans ?_ (discardMsg_place c (s.setTx c (s.chan c).tx.flush))
  generalize discardMsg c (s.setTx c (s.chan c).tx.flush) = u
  generalize hv : (u.setRx c (u.chan c).rx.idled).setFl c
    { ((u.setRx c (u.chan c).rx.idled).chan c).fl with host := false, held := false, holdCnt := 0 } = v
  have hvu : v.place = u.place := hv ▸ rfl
  exact (rfl : _ = (evalQuota c v).place).trans ((evalQuota_place c v).trans hvu)

theorem releaseCmd_place (s : State) : (releaseCmd s).place = s.place := by
  unfold releaseCmd
  split
  · rfl
  · simp [State.place, releaseHead]

theorem setHostCause_place (on : Bool) (c : Chan) (s : State) : (setHostCause on c s).place = s.place := by
  rw [setHostCause_eq]; rfl

theorem readCause_place (s : State) : (readCause s).place = s.place := by
  unfold readCause acknowledge
  dsimp only
  split
  · rfl
  · split
    · rfl
    · split <;> rfl

theorem writePoolcfg_place (w : Word) (s : State) : (writePoolcfg w s).place = s.place := by
  unfold writePoolcfg
  dsimp only
  split
  · rfl
  · exact evalPoolLow_place _

theorem writeRingcfg_place (w : Word) (s : State) : (writeRingcfg w s).place = s.place := by
  unfold writeRingcfg
  dsimp only
  split <;> rfl

theorem writeRxoffset_place (w : Word) (s : State) : (writeRxoffset w s).place = s.place := by
  unfold writeRxoffset
  split
  · rfl
  · split <;> rfl

theorem writeRefdiv_place (w : Word) (s : State) : (writeRefdiv w s).place = s.place := by
  unfold writeRefdiv
  split <;> rfl

theorem writeChsel_place (w : Word) (s : State) : (writeChsel w s).place = s.place := by
  unfold writeChsel
  split <;> rfl

theorem advanced_place (s : State) : ({ s with map := s.map.advanced } : State).place = s.place := by
  unfold MapUnit.advanced
  split <;> rfl

theorem enablesStored_place (c : Chan) (old : ChanCfg) (s : State) : (enablesStored c old s).place = s.place := by
  unfold enablesStored
  dsimp only
  rw [evalPause_place]
  have hrest : ∀ (b b' : Bool) (t : State), (if b then letGo c (if b' then txDisable c t else t)
      else if b' then txDisable c t else t).place = t.place := by
    intro b b' t
    cases b <;> cases b'
    · rfl
    · exact txDisable_place c t
    · rfl
    · exact (rfl : _ = (txDisable c t).place).trans (txDisable_place c t)
  rw [hrest]
  split
  · exact discardMsg_place ..
  · rfl

/-! ## The switch and the checks of COMMIT -/

theorem bankFits_of_check {s : State} (h : commitCheck s = none) : s.bankFits s.map.shadow := by
  unfold commitCheck at h
  split at h
  · cases h
  · split at h
    · cases h
    · next hbeyond =>
      split at h
      · cases h
      · next hpath =>
        refine ⟨fun k hk => ?_, fun c hrx hfc hgives => ?_⟩
        · by_cases hlt : k < 32
          · have hall := List.find?_eq_none.mp hbeyond k (List.mem_range.mpr hlt)
            simpa [hk] using hall
          · rw [Bank.entry, dif_neg hlt]
        · have hall := List.find?_eq_none.mp hpath c (mem_channels c)
          simpa [Bank.noReturn, hrx, hfc, hgives] using hall

theorem len_of_check {s : State} (h : commitCheck s = none) (hst : s.tim.st ≠ .off) : s.map.shadow.len = s.map.active.len := by
  by_contra hne
  rw [commitCheck, if_pos ⟨hne, hst⟩] at h
  cases h

/-- SHADOW made ACTIVE outside a frame, having passed the checks (R48). -/
theorem MapFits.committed {s t : State} (h : MapFits s) (hm : EnablesWithin s t) (hshadow : s.bankFits s.map.shadow)
    (hst : ¬ s.tim.st.mayWait) (htim : t.tim = s.tim) (hslot : t.slot = s.slot) (hmap : t.map.active = s.map.shadow)
    (hmap' : t.map.shadow = s.map.shadow) (hcommit : t.map.commit = .idle) : MapFits t := by
  have hnot : t.map.commit ≠ .pending := by rw [hcommit]; decide
  have hidle : s.slot = .idle := h.idle (fun hl => hst (.inl hl)) fun hd => hst (.inr (.inl hd))
  refine ⟨htim ▸ h.enable, ?_, ?_, ?_, fun hp => absurd hp hnot, fun hp => absurd hp hnot, fun hp => absurd hp hnot, ?_⟩
  · rw [hmap]; exact ⟨hshadow.1, hm.returnPaths hshadow.2⟩
  · rw [hmap]; exact h.shadowZero
  · rw [hmap']; exact h.shadowZero
  · rw [hslot, hidle]; exact fits_idle _ _

theorem switchBanks_slot (s : State) : (switchBanks s).slot = s.slot := by
  have hslot := congrArg State.slot (switchBanks_frame s)
  exact hslot

theorem commitCmd_mapFits {s : State} (h : MapFits s) : MapFits (commitCmd s) := by
  have hm := (commitCmd_moves s).enablesWithin
  by_cases hp : s.map.commit = .pending
  · rw [commitCmd_pending hp] at hm ⊢
    exact h.same hm rfl
  unfold commitCmd at hm ⊢
  rw [if_neg hp] at hm ⊢
  cases hcheck : commitCheck s with
  | some why => exact h.same (.refl _) rfl
  | none =>
    rw [hcheck] at hm
    dsimp only at hm ⊢
    unfold acceptCommit at hm ⊢
    dsimp only at hm ⊢
    have hshadow := bankFits_of_check hcheck
    split
    · next hst =>
      have hwait := (mayWait_iff _).mpr hst
      have hrun : s.tim.st ≠ .off := fun hoff => by rw [hoff] at hst; cases hst
      exact ⟨h.enable, h.active, h.activeZero, h.shadowZero, fun _ => hwait,
        fun _ => len_of_check hcheck hrun, fun _ => hshadow, h.slot⟩
    · next hst =>
      rw [if_neg hst] at hm
      generalize hu : ({ s with map := { s.map with result := .none, reason := .none, detail := 0 } } : State) = u at hm ⊢
      have htim : (switchBanks u).tim = s.tim := by rw [switchBanks_tim, ← hu]
      have hslot : (switchBanks u).slot = s.slot := by rw [switchBanks_slot, ← hu]
      have hmap := switchBanks_map u
      refine h.committed hm hshadow (fun hw => hst ((mayWait_iff _).mp hw)) htim hslot ?_ ?_ ?_ <;>
        rw [setCmd_map, hmap, ← hu] <;> rfl

theorem cancelCmd_mapFits {s : State} (h : MapFits s) : MapFits (cancelCmd s) := by
  unfold cancelCmd
  split
  · refine h.turn (.refl _) (.kept rfl rfl fun hp => by cases hp) h.enable (fun hp => by cases hp) h.slot
  · exact h.same (.refl _) rfl

theorem switchBanks_mapFits {s : State} (h : MapFits s) (hp : s.map.commit = .pending) : MapFits (switchBanks s) := by
  have htim := switchBanks_tim s
  have hmap := switchBanks_map s
  refine h.turn (switchBanks_moves s).enablesWithin ?_ ?_ ?_ ?_
  · rw [hmap]; exact .switched hp rfl rfl rfl
  · rw [htim]; exact h.enable
  · intro hpending; rw [hmap] at hpending; cases hpending
  · rw [htim, switchBanks_slot]; exact h.slot

/-! ## Writes of the map -/

theorem storeEntry_unusedZero {m : MapUnit} {e : MapEntry} (he : e.mode = .unused → e.chan = 0) (h : m.shadow.unusedZero) :
    (m.storeEntry e).shadow.unusedZero := by
  intro k
  rw [storeEntry_entry]
  split
  · exact he
  · exact h k

theorem storedEntry_zero (w : Word) : (storedEntry w).mode = .unused → (storedEntry w).chan = 0 := by
  unfold storedEntry
  dsimp only
  split
  · exact fun _ => rfl
  · intro h
    split at h <;> cases h

/-- A write of SHADOW while no commit is pending. -/
theorem MapFits.shadowWritten {s : State} (h : MapFits s) (hidle : s.map.commit = .idle) {m : MapUnit}
    (hactive : m.active = s.map.active) (hcommit : m.commit = s.map.commit) (hzero : m.shadow.unusedZero) :
    MapFits { s with map := m } := by
  have hnot : m.commit ≠ .pending := by rw [hcommit, hidle]; decide
  refine ⟨h.enable, ?_, ?_, hzero, fun hp => absurd hp hnot, fun hp => absurd hp hnot, fun hp => absurd hp hnot, ?_⟩
  · show s.bankFits m.active
    rw [hactive]; exact h.active
  · show m.active.unusedZero
    rw [hactive]; exact h.activeZero
  · show s.slot.fits s.tim.st m.active.slots
    rw [hactive]; exact h.slot

theorem storeEntry_banks (m : MapUnit) (e : MapEntry) :
    (m.storeEntry e).active = m.active ∧ (m.storeEntry e).commit = m.commit := by
  have hactive := congrArg MapUnit.active (storeEntry_frame m e)
  have hcommit := congrArg MapUnit.commit (storeEntry_frame m e)
  exact ⟨hactive, hcommit⟩

theorem writeMapdata_mapFits (w : Word) {s : State} (h : MapFits s) : MapFits (writeMapdata w s) := by
  by_cases hp : s.map.commit = .pending
  · rw [writeMapdata_pending w hp]; exact h.same (.refl _) rfl
  have hidle := commit_idle_of_ne hp
  cases hsel : s.map.selActive
  case true => rw [writeMapdata_selActive w hidle hsel]; exact h.same (.refl _) rfl
  case false =>
    by_cases h3 : (w.extractLsb' 8 2).toNat = 3
    · rw [writeMapdata_codeThree hidle hsel h3]; exact h.same (.refl _) rfl
    · rw [writeMapdata_stores hidle hsel h3]
      obtain ⟨hactive, hcommit⟩ := storeEntry_banks s.map (storedEntry w)
      exact h.shadowWritten hidle hactive hcommit (storeEntry_unusedZero (storedEntry_zero w) h.shadowZero)

theorem writeMaphdr_mapFits (w : Word) {s : State} (h : MapFits s) : MapFits (writeMaphdr w s) := by
  by_cases hp : s.map.commit = .pending
  · rw [writeMaphdr_pending w hp]; exact h.same (.refl _) rfl
  · rw [writeMaphdr_idle w (commit_idle_of_ne hp)]
    exact h.shadowWritten (commit_idle_of_ne hp) rfl rfl h.shadowZero

/-! ## The enables -/

theorem enablesBarred_false {s : State} {c : Chan} {rx fc : Bool} (h : ¬ enablesBarred s c rx fc = true) (hrx : rx = true)
    (hfc : fc = true) :
    (s.map.active.gives .rx c = true → s.map.active.gives .tx c = true) ∧
    (s.map.commit = .pending → s.map.shadow.gives .rx c = true → s.map.shadow.gives .tx c = true) := by
  subst hrx hfc
  simp only [enablesBarred, Bank.noReturn, Bool.true_and, Bool.or_eq_true, Bool.and_eq_true, Bool.not_eq_true',
    decide_eq_true_eq, not_or, not_and, Bool.not_eq_false] at h
  exact h

/-- Enables stored after the check of R64 keep the return paths. -/
theorem setCfg_returnPaths {s : State} {c : Chan} {g : ChanCfg} {b : Bank} (h : s.returnPaths b)
    (hc : g.rx = true → g.fc = true → b.gives .rx c = true → b.gives .tx c = true) : (s.setCfg c g).returnPaths b := by
  intro d hrx hfc
  by_cases hd : d = c
  · subst hd
    rw [chan_setCfg_same] at hrx hfc
    exact hc hrx hfc
  · rw [chan_setCfg_other s g hd] at hrx hfc
    exact h d hrx hfc

theorem setCfg_mapFits {s : State} {c : Chan} {g : ChanCfg} (h : MapFits s) (hg : ¬ enablesBarred s c g.rx g.fc = true) :
    MapFits (s.setCfg c g) :=
  ⟨h.enable, ⟨h.active.1, setCfg_returnPaths h.active.2 fun hrx hfc => (enablesBarred_false hg hrx hfc).1⟩, h.activeZero,
    h.shadowZero, h.waits, h.len,
    fun hp => ⟨(h.shadow hp).1, setCfg_returnPaths (h.shadow hp).2 fun hrx hfc => (enablesBarred_false hg hrx hfc).2 hp⟩, h.slot⟩

theorem evalPause_enablesWithin (c : Chan) (s : State) : EnablesWithin s (evalPause c s) := by
  rw [evalPause_eq]
  exact .of_cfg (setChan_proj Channel.cfg (settled_cfg _))

theorem enablesStored_enablesWithin (c : Chan) (old : ChanCfg) (s : State) : EnablesWithin s (enablesStored c old s) := by
  obtain ⟨v, hv, heq⟩ := enablesStored_moves c old s
  rw [heq]
  exact hv.enablesWithin.trans (evalPause_enablesWithin c v)

theorem writeChcfg0_mapFits (w : Word) {s : State} (h : MapFits s) : MapFits (writeChcfg0 w s) := by
  unfold writeChcfg0
  dsimp only
  split
  · exact h.same (.refl _) rfl
  · next hg =>
    exact (setCfg_mapFits (g := { (s.chan s.chsel).cfg with rx := wbit w 0, tx := wbit w 1, fc := wbit w 2 }) h hg).same
      (enablesStored_enablesWithin _ _ _) (enablesStored_place ..)

theorem writeChcfg_mapFits (n : Fin 8) (w : Word) {s : State} (h : MapFits s) : MapFits (writeChcfg n w s) := by
  by_cases hn : n = 0
  · rw [writeChcfg, if_pos hn]
    exact writeChcfg0_mapFits w h
  · by_cases hr : (s.chan s.chsel).cfg.rejects n w
    · rw [writeChcfg_of_rejects hn hr]; exact h.same (.refl _) rfl
    · rw [writeChcfg_of_not_rejects hn hr]
      exact h.same (Move.one (.configure hn hr)).enablesWithin rfl

/-! ## Slots -/

theorem advanceSlot_fits {s : State} {k : Nat} (h : s.tim.st = .locked ∨ s.tim.st = .driving) :
    (advanceSlot k s).slot.fits s.tim.st s.map.active.slots := by
  unfold advanceSlot
  split
  · next hlt => exact fits_inSlot h hlt (Nat.zero_le _)
  · exact fits_frameDone h

/-- After its result a slot makes way for the next. -/
theorem MapFits.advances {s t : State} (h : MapFits s) (hm : Moves s t) (htim : t.tim = s.tim) (hmap : t.map = s.map)
    (hst : s.tim.st = .locked ∨ s.tim.st = .driving) (k : Nat) : MapFits (advanceSlot k t) := by
  have htim' : (advanceSlot k t).tim = t.tim := by unfold advanceSlot; split <;> rfl
  have hmap' : (advanceSlot k t).map = t.map := by unfold advanceSlot; split <;> rfl
  refine h.turn (hm.trans (advanceSlot_moves k t)).enablesWithin ?_ ?_ ?_ ?_
  · rw [hmap', hmap]; exact .refl _
  · rw [htim', htim]; exact h.enable
  · rw [hmap', hmap, htim', htim]; exact h.waits
  · rw [htim', htim, ← hmap, ← htim]; exact advanceSlot_fits (htim ▸ hst)

theorem MapFits.worked {s : State} (h : MapFits s) {x : Slot} (hx : s.slot = .inSlot x) :
    s.tim.st = .locked ∨ s.tim.st = .driving :=
  h.slot.1 (by rw [hx]; exact fun hne => by cases hne)

theorem reportEcho_moves (c : Chan) (ok : Bool) (s : State) : Moves s (reportEcho c ok s) :=
  (txEcho_moves c ok s).trans (echo_moves ..)

theorem echoStep_mapFits {s : State} (h : MapFits s) : MapFits (echoStep s) := by
  unfold echoStep
  split
  · next x hx =>
    split
    · split
      · have hframe := reportEcho_unworked s x.entry.chan (decide (x.bits = wordBits ‹SlotWord›)) s
        have htim := congrArg State.tim hframe
        have hmap := congrArg State.map hframe
        exact h.advances (reportEcho_moves ..) htim hmap (h.worked hx) _
      · exact h
    · exact h
  · exact h
  · exact h

theorem rxWordStep_mapFits {s : State} (h : MapFits s) : MapFits (rxWordStep s) := by
  unfold rxWordStep
  split
  · next x hx =>
    split
    · have hframe := deliver_unworked s x.entry.chan (classify (wordOfBits x.bits)) s
      have htim := congrArg State.tim hframe
      have hmap := congrArg State.map hframe
      exact h.advances (deliver_moves ..) htim hmap (h.worked hx) _
    · exact h
  · exact h
  · exact h

theorem settleSlot_mapFits {s : State} (h : MapFits s) : MapFits (settleSlot s) := rxWordStep_mapFits (echoStep_mapFits h)

theorem keepWord_place (c : Chan) (k : TxKind) (s : State) : (keepWord c k s).place = s.place := by
  unfold keepWord
  dsimp only
  split <;> rfl

theorem txSlotStep_mapFits {s : State} (h : MapFits s) : MapFits (txSlotStep s) := by
  have hm := (txSlotStep_moves s).enablesWithin
  unfold txSlotStep at hm ⊢
  split
  · next x hx =>
    split
    · next hword =>
      rw [hx] at hm
      simp only [hword, if_true] at hm
      unfold driveWord at hm ⊢
      dsimp only at hm ⊢
      have hplace := keepWord_place x.entry.chan (chooseKind (s.chan x.entry.chan)) s
      simp only [State.place, Prod.mk.injEq] at hplace
      obtain ⟨⟨henable, hst⟩, ⟨hactive, hshadow, hcommit⟩, -⟩ := hplace
      obtain ⟨hnumber, hbits⟩ := h.slot.2 x hx
      refine h.turn hm (.kept hactive hshadow fun hp => hcommit ▸ hp) ?_ (fun hp => ?_) ?_
      · show (keepWord _ _ s).tim.enable = false ↔ (keepWord _ _ s).tim.st = .off
        rw [henable, hst]; exact h.enable
      · show (keepWord _ _ s).tim.st.mayWait
        rw [hst]; exact h.waits (hcommit ▸ hp)
      · show SlotPhase.fits _ (keepWord _ _ s).tim.st _
        rw [hst]; exact fits_inSlot (h.worked hx) hnumber hbits
    · exact h
  · exact h
  · exact h

theorem sampled_number (x : Slot) (data : Bool) : (x.sampled data).number = x.number := by
  unfold Slot.sampled; split <;> rfl

theorem sampled_length {x : Slot} (data : Bool) (h : x.bits.length ≤ 11) : (x.sampled data).bits.length ≤ 11 := by
  unfold Slot.sampled
  split
  · rw [List.length_append, List.length_singleton]; omega
  · exact h

theorem slotEdge_mapFits (data : Bool) {s : State} (h : MapFits s) : MapFits (slotEdge data s) := by
  unfold slotEdge
  split
  · next x hx =>
    dsimp only
    split
    · exact h.advances .refl rfl rfl (h.worked hx) _
    · obtain ⟨hnumber, hbits⟩ := h.slot.2 x hx
      exact h.turn (.refl _) (.refl _) h.enable h.waits
        (fits_inSlot (h.worked hx) (by rw [sampled_number]; exact hnumber) (sampled_length data hbits))
  · exact h
  · exact h

theorem edge_st (t : Timing) (sync : Bool) : (t.edge sync).enable = t.enable ∧ (t.edge sync).st = t.st := by
  unfold Timing.edge; split <;> exact ⟨rfl, rfl⟩

theorem risingEdge_mapFits (sync data : Bool) {s : State} (h : MapFits s) : MapFits (risingEdge sync data s) := by
  have hsettled := settleSlot_mapFits h
  have htim := settleSlot_tim s
  unfold risingEdge
  refine slotEdge_mapFits data (hsettled.same (.refl _) ?_)
  obtain ⟨henable, hst⟩ := edge_st s.tim sync
  show (((s.tim.edge sync).enable, (s.tim.edge sync).st), _) = (((settleSlot s).tim.enable, (settleSlot s).tim.st), _)
  rw [henable, hst, htim]

/-! ## Falls, boundaries and pulses -/

/-- A fall from a state without a slot: the timing state is as given, and no commit is left pending. -/
theorem fall_mapFits {aborts : Bool} {s u : State} (h : MapFits s) (hm : EnablesWithin s u)
    (hu : u.map = s.map) (henable : u.tim.enable = false ↔ u.tim.st = .off) (hslot : u.slot = .idle) : MapFits (fall aborts u) := by
  refine h.turn (hm.trans (fall_moves aborts u).enablesWithin) ?_ ?_ ?_ ?_
  · rw [fall_map, hu]; exact mapTurn_afterSwitch _
  · rw [fall_tim]; exact henable
  · intro hp
    rw [fall_map] at hp
    split at hp
    · cases hp
    · contradiction
  · rw [fall_tim, fall_slot, hslot]; exact fits_idle _ _

end Sys2Proof.Machine
end

section
/-! PROOFS. Every step keeps the laws of the banks, of a pending commit and of the slot in progress (O56): the timing unit's
transitions, the resets, and the dispatch over commands and changes of the lines. -/

namespace Sys2Proof.Machine

open Sys2Proof

/-! ## Kinds of transition -/

/-- The slot in progress is abandoned or over, and the timing state stays or moves to one in which a commit may wait or none does. -/
theorem MapFits.leavesSlot {s t : State} (h : MapFits s) (hm : Moves s t) (hmap : t.map = s.map)
    (henable : t.tim.enable = s.tim.enable) (hs : s.tim.st ≠ .off) (ht : t.tim.st ≠ .off)
    (hwaits : s.map.commit = .pending → t.tim.st.mayWait) (hslot : t.slot = .idle) : MapFits t :=
  h.running hm.enablesWithin (by rw [hmap]; exact .refl _) henable hs ht (by rw [hmap]; exact hwaits)
    (by rw [hslot]; exact fits_idle _ _)

/-- Slot 0 begins in LOCKED or DRIVING. -/
theorem MapFits.beginsSlot {s t : State} (h : MapFits s) (hm : Moves s t) (hmap : t.map = s.map)
    (henable : t.tim.enable = s.tim.enable) (hs : s.tim.st ≠ .off) (ht : t.tim.st = .locked ∨ t.tim.st = .driving) {x : Slot}
    (hslot : t.slot = .inSlot x) (hnumber : x.number = 0) (hbits : x.bits.length ≤ 11) : MapFits t := by
  have hrun : t.tim.st ≠ .off := by rcases ht with ht | ht <;> rw [ht] <;> decide
  refine h.running hm.enablesWithin (by rw [hmap]; exact .refl _) henable hs hrun (fun _ => ?_) ?_
  · exact ht.elim .inl fun hd => .inr (.inl hd)
  · rw [hslot]
    exact fits_inSlot ht (by rw [hnumber]; exact Bank.slots_pos _) hbits

theorem frame_place {s u : State} (h : u.place = s.place) : u.map.active = s.map.active ∧ u.slot = s.slot ∧
    u.tim.st = s.tim.st ∧ u.tim.enable = s.tim.enable := by
  simp only [State.place, Prod.mk.injEq] at h
  obtain ⟨⟨henable, hst⟩, ⟨hactive, -, -⟩, hslot⟩ := h
  exact ⟨hactive, hslot, hst, henable⟩

theorem freshFrame_tim_map (s : State) : (freshFrame s).tim = s.tim ∧ (freshFrame s).map = s.map := by
  refine ⟨takeAll_eq State.tim (fun f hf t => ?_) s, takeAll_eq State.map (fun f hf t => ?_) s⟩ <;>
    (obtain ⟨c, -, rfl⟩ := List.mem_map.mp hf; rfl)

/-- A frame that begins at a sampled pulse (R8). -/
theorem beginFrameAtPulse_mapFits {s u : State} (h : MapFits s) (hm : Moves s u) (hmap : u.map = s.map)
    (henable : u.tim.enable = s.tim.enable) (hs : s.tim.st ≠ .off) (hu : u.tim.st = .locked) :
    MapFits (beginFrameAtPulse u) := by
  obtain ⟨htim', hmap'⟩ := freshFrame_tim_map u
  have hmoves := hm.trans (beginFrameAtPulse_moves u)
  unfold beginFrameAtPulse beginSampledSlot at hmoves ⊢
  dsimp only at hmoves ⊢
  generalize freshFrame u = v at *
  refine h.beginsSlot hmoves (hmap'.trans hmap) ?_ hs ?_ rfl rfl (by simp)
  · show v.tim.enable = s.tim.enable
    rw [htim', henable]
  · show v.tim.st = .locked ∨ v.tim.st = .driving
    rw [htim']; exact .inl hu

/-! ## Frame boundaries -/

theorem boundaryWork_slot (s : State) : (boundaryWork s).slot = s.slot := by
  have hframe := boundaryWork_frame s
  generalize boundaryWork s = t at hframe ⊢
  have hslot := congrArg State.slot hframe
  exact hslot

theorem boundaryWork_mapFits {s : State} (h : MapFits s) : MapFits (boundaryWork s) := by
  have htim := boundaryWork_tim s
  have hmap := boundaryWork_map s
  have hslot := boundaryWork_slot s
  have hm := (boundaryWork_moves s).enablesWithin
  generalize boundaryWork s = t at *
  refine h.turn hm ?_ ?_ ?_ ?_
  · rw [hmap]; exact mapTurn_afterSwitch _
  · rw [htim]; exact h.enable
  · intro hp
    rw [hmap] at hp
    rw [htim]
    split at hp
    · cases hp
    · contradiction
  · rw [htim, hslot]; exact h.slot

theorem beginNextFrame_mapFits {s : State} (h : MapFits s) (hst : s.tim.st = .locked ∨ s.tim.st = .driving) :
    MapFits (beginNextFrame s) := by
  have hs : s.tim.st ≠ .off := by rcases hst with hst | hst <;> rw [hst] <;> decide
  exact h.beginsSlot (beginNextFrame_moves s) rfl rfl hs hst rfl rfl (Nat.zero_le _)

theorem enterFlywheel_mapFits {s : State} (h : MapFits s) (hs : s.tim.st ≠ .off) : MapFits (enterFlywheel s) :=
  h.leavesSlot (enterFlywheel_moves s) rfl rfl hs (by simp [enterFlywheel]) (fun _ => .inr (.inr rfl)) rfl

theorem lockedBoundary_mapFits (pulse : Bool) {s : State} (h : MapFits s) (hst : s.tim.st = .locked) :
    MapFits (lockedBoundary pulse s) := by
  unfold lockedBoundary
  split
  · exact beginNextFrame_mapFits (h.same (withTim_moves rfl rfl).enablesWithin rfl) (.inl hst)
  · split
    · exact beginNextFrame_mapFits (h.same (withTim_moves rfl rfl).enablesWithin rfl) (.inl hst)
    · exact enterFlywheel_mapFits h (by rw [hst]; decide)

theorem boundaryWork_st (s : State) : (boundaryWork s).tim.st = s.tim.st := by rw [boundaryWork_tim]

theorem frameBoundaryStep_mapFits (pulse : Bool) {s : State} (h : MapFits s) : MapFits (frameBoundaryStep pulse s) := by
  unfold frameBoundaryStep
  split
  · split
    · next hst => exact beginNextFrame_mapFits (boundaryWork_mapFits h) (.inr (by rw [boundaryWork_st, hst]))
    · next hst => exact lockedBoundary_mapFits pulse (boundaryWork_mapFits h) (by rw [boundaryWork_st, hst])
    · exact h
    · exact h
    · exact h
    · exact h
  · exact h

/-! ## Sync pulses -/

theorem pulseInListen_mapFits {s : State} (h : MapFits s) (hst : s.tim.st = .listen) : MapFits (pulseInListen s) := by
  have hs : s.tim.st ≠ .off := by rw [hst]; decide
  have hslot : s.slot = .idle := h.idle (by rw [hst]; decide) (by rw [hst]; decide)
  have hnot : s.map.commit = .pending → False := h.not_pending (by rw [hst]; simp [TimState.mayWait])
  have hm := pulseInListen_moves s
  unfold pulseInListen at hm ⊢
  dsimp only at hm ⊢
  split
  · next hrole =>
    rw [if_pos hrole] at hm
    exact h.leavesSlot hm rfl rfl hs (by simp) (fun hp => (hnot hp).elim) hslot
  · next hrole =>
    rw [if_neg hrole] at hm
    exact h.leavesSlot hm rfl rfl hs (by simp) (fun hp => (hnot hp).elim) hslot

theorem pulseInSearch_mapFits {s : State} (h : MapFits s) (hst : s.tim.st = .search) : MapFits (pulseInSearch s) := by
  unfold pulseInSearch
  split
  · exact beginFrameAtPulse_mapFits h (.timing rfl rfl rfl rfl rfl) rfl rfl (by rw [hst]; decide) rfl
  · exact h.same (withTim_moves rfl rfl).enablesWithin rfl

theorem conflict_mapFits {s : State} (h : MapFits s) (hst : s.tim.st ≠ .off) : MapFits (conflict s) := by
  unfold conflict
  refine fall_mapFits h (Moves.timing rfl rfl rfl rfl rfl).enablesWithin rfl ?_ rfl
  show s.tim.enable = false ↔ TimState.search = TimState.off
  rw [h.enabled hst]
  simp

theorem realign_mapFits {s : State} (h : MapFits s) (hst : s.tim.st ≠ .off) : MapFits (realign s) := by
  unfold realign
  generalize hu : raise .slip _ = u
  have hm : Moves s u := hu ▸ Moves.timing rfl rfl rfl rfl rfl
  have htim := congrArg State.tim (trafficAbort_frame u)
  have hmap := congrArg State.map (trafficAbort_frame u)
  dsimp only at htim hmap
  refine beginFrameAtPulse_mapFits h (hm.trans (trafficAbort_moves u)) (hmap.trans (hu ▸ rfl)) ?_ hst ?_
  · rw [htim, ← hu]; rfl
  · rw [htim, ← hu]; rfl

theorem strayPulse_mapFits {s : State} (h : MapFits s) : MapFits (strayPulse s) :=
  h.same (strayPulse_moves s).enablesWithin rfl

theorem pulseExpected_mapFits {s : State} (h : MapFits s) (hst : s.tim.st = .locked) : MapFits (pulseExpected s) := by
  have hs : s.tim.st ≠ .off := by rw [hst]; decide
  have hm := pulseExpected_moves s
  unfold pulseExpected
  split
  · exact h.same (withTim_moves rfl rfl).enablesWithin rfl
  · split
    · have hst' : (boundaryWork s).tim.st = .locked := by rw [boundaryWork_st, hst]
      have hwork := boundaryWork_mapFits h
      generalize boundaryWork s = u at *
      exact hwork.beginsSlot (Moves.trans (keptLock_moves u) (beginSlotAtEdge_moves _)) rfl rfl (by rw [hst']; decide)
        (.inl hst') rfl rfl (by simp)
    · exact h.beginsSlot (Moves.trans (keptLock_moves s) (beginSampledSlot_moves _)) rfl rfl hs (.inl hst) rfl rfl (by simp)

theorem pulseInLocked_mapFits {s : State} (h : MapFits s) (hst : s.tim.st = .locked) : MapFits (pulseInLocked s) := by
  unfold pulseInLocked
  split
  · exact pulseExpected_mapFits h hst
  · split
    · exact realign_mapFits h (by rw [hst]; decide)
    · exact strayPulse_mapFits h

theorem relock_mapFits {s : State} (h : MapFits s) (hst : s.tim.st ≠ .off) : MapFits (relock s) :=
  beginFrameAtPulse_mapFits h (withTim_moves rfl rfl) rfl rfl hst rfl

theorem pulseInFlywheel_mapFits {s : State} (h : MapFits s) (hst : s.tim.st = .flywheel) : MapFits (pulseInFlywheel s) := by
  have hs : s.tim.st ≠ .off := by rw [hst]; decide
  unfold pulseInFlywheel
  split
  · exact relock_mapFits h hs
  · split
    · exact realign_mapFits h hs
    · exact strayPulse_mapFits h

theorem pulseInDriving_mapFits {s : State} (h : MapFits s) (hst : s.tim.st = .driving) : MapFits (pulseInDriving s) := by
  unfold pulseInDriving
  split
  · exact h
  · exact conflict_mapFits h (by rw [hst]; decide)

theorem syncPulseStep_mapFits {s : State} (h : MapFits s) : MapFits (syncPulseStep s) := by
  unfold syncPulseStep
  split
  · have htaken : MapFits { s with tim := { s.tim with pulse := false } } :=
      h.same (withTim_moves (s := s) rfl rfl).enablesWithin rfl
    split
    · exact htaken
    · next hst => exact pulseInListen_mapFits htaken hst
    · next hst => exact pulseInDriving_mapFits htaken hst
    · next hst => exact pulseInSearch_mapFits htaken hst
    · next hst => exact pulseInLocked_mapFits htaken hst
    · next hst => exact pulseInFlywheel_mapFits htaken hst
  · exact h

/-! ## Ends of a local frame period -/

theorem sampleLine_place (sense : Bool) (s : State) : (sampleLine sense s).place = s.place := by
  unfold sampleLine
  split
  · unfold lineSteady; split <;> rfl
  · split
    · unfold lineChange
      dsimp only
      split
      · rfl
      · split <;> rfl
    · rfl

theorem sampleLine_mapFits (sense : Bool) {s : State} (h : MapFits s) : MapFits (sampleLine sense s) :=
  h.same (sampleLine_moves sense s).enablesWithin (sampleLine_place sense s)

theorem enterDriving_mapFits {s : State} (h : MapFits s) (hst : s.tim.st = .listen) : MapFits (enterDriving s) := by
  have hm := enterDriving_moves s
  unfold enterDriving at hm ⊢
  dsimp only at hm ⊢
  generalize hu : raise _ _ = u at hm ⊢
  obtain ⟨htim', hmap'⟩ := freshFrame_tim_map u
  generalize freshFrame u = v at *
  refine h.beginsSlot hm (hmap'.trans (hu ▸ rfl)) ?_ (by rw [hst]; decide) ?_ rfl rfl (Nat.zero_le _)
  · show v.tim.enable = s.tim.enable
    rw [htim', ← hu]; rfl
  · show v.tim.st = .locked ∨ v.tim.st = .driving
    rw [htim', ← hu]; exact .inr rfl

theorem listenStep_mapFits {s : State} (h : MapFits s) (hst : s.tim.st = .listen) : MapFits (listenStep s) := by
  unfold listenStep
  split
  · exact enterDriving_mapFits h hst
  · exact h.same (withTim_moves rfl rfl).enablesWithin rfl

theorem enterListen_mapFits {s : State} (h : MapFits s) (hst : s.tim.st = .search) : MapFits (enterListen s) :=
  h.leavesSlot (withTim_moves rfl rfl) rfl rfl (by rw [hst]; decide) (by simp [enterListen])
    (fun hp => (h.not_pending (by rw [hst]; simp [TimState.mayWait]) hp).elim)
    (h.idle (by rw [hst]; decide) (by rw [hst]; decide))

theorem holdoffStep_mapFits {s : State} (h : MapFits s) (hst : s.tim.st = .search) : MapFits (holdoffStep s) := by
  unfold holdoffStep
  split
  · exact enterListen_mapFits h hst
  · exact h.same (withTim_moves rfl rfl).enablesWithin rfl

theorem holdoffOrLine_mapFits (reaches : Bool) {s : State} (h : MapFits s) (hst : s.tim.st = .search) :
    MapFits (holdoffOrLine reaches s) := by
  have harb : MapFits { s with arb := s.arb + 1 } := h.same (.refl _) rfl
  unfold holdoffOrLine holdoffWithLine
  dsimp only
  split
  · split
    · exact enterListen_mapFits harb hst
    · exact harb
  · split
    · exact holdoffStep_mapFits h hst
    · exact h

theorem settleLoss_place (s : State) : (settleLoss s).place = s.place := by
  unfold settleLoss
  split
  · rfl
  · split <;> rfl

theorem settleLoss_map (s : State) : (settleLoss s).map = s.map := by
  unfold settleLoss
  split
  · rfl
  · split <;> rfl

theorem settleLoss_moves (s : State) : Moves s (settleLoss s) := by
  unfold settleLoss
  split
  · exact withTim_moves rfl rfl
  · split
    · exact .timing rfl rfl rfl rfl rfl
    · exact withTim_moves rfl rfl

theorem expireFlywheel_mapFits {s : State} (h : MapFits s) (hst : s.tim.st = .flywheel) : MapFits (expireFlywheel s) := by
  unfold expireFlywheel
  generalize hu : ({ s with tim := _, slot := _ } : State) = u
  have hm : Moves s u := hu ▸ leaveSlot_moves rfl rfl
  obtain ⟨-, hslot, hst', henable⟩ := frame_place (settleLoss_place u)
  refine fall_mapFits h (hm.trans (settleLoss_moves u)).enablesWithin (by rw [settleLoss_map, ← hu]) ?_ (by rw [hslot, ← hu])
  rw [hst', henable, ← hu]
  show s.tim.enable = false ↔ TimState.search = TimState.off
  rw [h.enabled (by rw [hst]; decide)]
  simp

theorem flywheelStep_mapFits {s : State} (h : MapFits s) (hst : s.tim.st = .flywheel) : MapFits (flywheelStep s) := by
  unfold flywheelStep
  split
  · exact h.same (withTim_moves rfl rfl).enablesWithin rfl
  · exact expireFlywheel_mapFits h hst

theorem abandonSlot_mapFits {s : State} (h : MapFits s) : MapFits (abandonSlot s) := by
  have hsettled := settleSlot_mapFits h
  unfold abandonSlot
  exact hsettled.turn (dropSlot_moves _).enablesWithin (.refl _) hsettled.enable hsettled.waits (fits_idle _ _)

theorem abandonSlot_tim (s : State) : (abandonSlot s).tim = s.tim := settleSlot_tim s

theorem abandonSlot_map (s : State) : (abandonSlot s).map = s.map := by
  have hmap := congrArg State.map (settleSlot_unworked s s)
  exact hmap

theorem loseClock_mapFits {s : State} (h : MapFits s) (hst : s.tim.st ≠ .off) : MapFits (loseClock s) := by
  unfold loseClock
  exact (enterFlywheel_mapFits (abandonSlot_mapFits h) (by rw [abandonSlot_tim]; exact hst)).same
    (trafficAbort_moves _).enablesWithin (trafficAbort_place _)

theorem clockWatch_mapFits {s : State} (h : MapFits s) (hst : s.tim.st = .locked) : MapFits (clockWatch s) := by
  unfold clockWatch
  split
  · exact h
  · exact loseClock_mapFits h (by rw [hst]; decide)

theorem periodStep_mapFits {t : Timing} {s : State} (h : MapFits s) (hst : s.tim.st = t.st) : MapFits (periodStep t s) := by
  unfold periodStep
  split
  · exact h
  · next ht => exact listenStep_mapFits h (hst.trans ht)
  · next ht =>
    split
    · exact holdoffOrLine_mapFits _ h (hst.trans ht)
    · exact h
  · next ht => exact flywheelStep_mapFits h (hst.trans ht)
  · next ht => exact clockWatch_mapFits h (hst.trans ht)
  · exact frameBoundaryStep_mapFits false h

theorem periodEnd_mapFits (sense : Bool) {s : State} (h : MapFits s) : MapFits (periodEnd sense s) := by
  have hsense : MapFits { s with hwsense := sense } := h.same (.refl _) rfl
  obtain ⟨-, -, hst, -⟩ := frame_place (sampleLine_place sense { s with hwsense := sense })
  have hstep := periodStep_mapFits (t := s.tim) (sampleLine_mapFits sense hsense) hst
  unfold periodEnd
  generalize periodStep s.tim _ = u at *
  exact hstep.same (newPeriod_moves u).enablesWithin rfl

theorem refclkTick_mapFits {s : State} (h : MapFits s) : MapFits (refclkTick s) := by
  unfold refclkTick
  split
  · exact h.same (.refl _) rfl
  · split
    · exact h.same (.refl _) rfl
    · exact periodEnd_mapFits _ h

/-! ## TIMCFG, TIMING_RESTART and the resets -/

theorem entryState_ne_off (r : Role) : entryState r ≠ .off := by
  unfold entryState; split <;> decide

/-- An accepted write that takes enable from 1 to 0 stores its fields and disables the unit (R21). -/
theorem writeTimcfg_disables {w : Word} {s : State} (h : ¬ s.tim.rejects w) (he : s.tim.enable = true)
    (hw : w.getLsbD 15 = false) :
    ∃ r : Role, r.code = (w.extractLsb' 0 2).toNat ∧ writeTimcfg w s = disableTiming { s with tim := s.tim.storing w r } := by
  obtain ⟨r, hr, ha⟩ := timcfgAccepted_of_not_rejects h
  refine ⟨r, hr, ?_⟩
  rw [writeTimcfg, ha]
  simp only [Timing.storing, hw, he, Bool.false_and, Bool.not_false, Bool.true_and, Bool.false_eq_true, if_false, if_true]

theorem abandonSlot_slot (s : State) : (abandonSlot s).slot = .idle := rfl

theorem disableTiming_mapFits {s u : State} (h : MapFits s) (hm : EnablesWithin s u) (hmap : u.map = s.map)
    (henable : u.tim.enable = false) : MapFits (disableTiming u) := by
  have habandoned := (abandonSlot_moves u).enablesWithin
  have hmap' := abandonSlot_map u
  have hslot := abandonSlot_slot u
  unfold disableTiming
  generalize abandonSlot u = v at *
  exact fall_mapFits h (hm.trans habandoned) (hmap'.trans hmap) (by simp [Timing.disabled, henable]) hslot

theorem writeTimcfg_mapFits (w : Word) {s : State} (h : MapFits s) : MapFits (writeTimcfg w s) := by
  by_cases hr : s.tim.rejects w
  · rw [writeTimcfg_of_rejects hr]; exact h.same (.refl _) rfl
  by_cases hsteady : s.tim.enable = w.getLsbD 15
  · obtain ⟨r, -, heq⟩ := writeTimcfg_steady hr hsteady
    rw [heq]
    refine h.same (.refl _) ?_
    simp only [State.place, Timing.storing, ← hsteady]
  cases he : s.tim.enable
  case false =>
    have hoff := h.enable.mp he
    have hidle := h.idle (by rw [hoff]; decide) (by rw [hoff]; decide)
    have hon : w.getLsbD 15 = true := by rw [he] at hsteady; simpa using Ne.symm hsteady
    obtain ⟨r, -, heq⟩ := writeTimcfg_enables hr he hon
    rw [heq]
    refine h.turn (.refl _) (.refl _) ?_ (fun hp => ?_) ?_
    · show (s.tim.storing w r).enable = false ↔ entryState _ = .off
      simp only [Timing.storing, hon]
      exact ⟨fun hf => (by cases hf), fun hf => absurd hf (entryState_ne_off _)⟩
    · exact absurd hp (h.not_pending (by rw [hoff]; simp [TimState.mayWait]))
    · show s.slot.fits _ _
      rw [hidle]; exact fits_idle _ _
  case true =>
    have hoff : w.getLsbD 15 = false := by rw [he] at hsteady; simpa using Ne.symm hsteady
    obtain ⟨r, -, heq⟩ := writeTimcfg_disables hr he hoff
    rw [heq]
    exact disableTiming_mapFits h (.refl _) rfl hoff

theorem timingRestartCmd_mapFits {s : State} (h : MapFits s) : MapFits (timingRestartCmd s) := by
  by_cases hst : s.tim.st = .off
  · rw [timingRestartCmd_off hst]; exact h.same (.refl _) rfl
  have habandoned := (abandonSlot_moves s).enablesWithin
  have hmap' := abandonSlot_map s
  have hslot := abandonSlot_slot s
  rw [timingRestartCmd_running hst]
  generalize abandonSlot s = v at *
  refine (fall_mapFits (aborts := s.tim.st.aborts) (u := { v with tim := s.tim.restarted }) h ?_ hmap' ?_ hslot).same
    (.refl _) rfl
  · exact habandoned
  · show s.tim.enable = false ↔ entryState _ = .off
    rw [h.enabled hst]
    exact ⟨fun hf => (by cases hf), fun hf => absurd hf (entryState_ne_off _)⟩

theorem softReset_mapFits {s : State} (h : MapFits s) : MapFits s.softReset := by
  have hm : EnablesWithin s s.softReset := (Move.softReset s).enablesWithin
  refine h.turn hm ?_ (by simp [State.softReset, Timing.softReset]) (fun hp => ?_) (fits_idle _ _)
  · show MapTurn s.map s.map.softReset
    unfold MapUnit.softReset
    split
    · exact .kept rfl rfl fun hp => by cases hp
    · exact .refl _
  · change s.map.softReset.commit = .pending at hp
    unfold MapUnit.softReset at hp
    split at hp
    · cases hp
    · contradiction

theorem hardReset_mapFits (s : State) : MapFits s.hardReset := by
  have hreset : MapFits State.reset := (mapFits_iff _).mpr ⟨reset_mapLaw, ⟨fun h => absurd rfl h, fun x h => by cases h⟩⟩
  refine hreset.same (.of_cfg fun c => ?_) rfl
  rw [hardReset_chan, reset_chan]

/-! ## Dispatch -/

theorem runCommand_mapFits (code : BitVec 8) {s : State} (h : MapFits s) : MapFits (runCommand code s) := by
  unfold runCommand
  split
  · exact commitCmd_mapFits h
  · exact cancelCmd_mapFits h
  · exact timingRestartCmd_mapFits h
  · exact h.same (releaseCmd_moves s).enablesWithin (releaseCmd_place s)
  · exact (softReset_mapFits h).same (.refl _) rfl
  · exact h.same (flushCmd_moves _ s).enablesWithin (flushCmd_place _ s)
  · exact h.same (setHostCause_moves true _ s).enablesWithin (setHostCause_place ..)
  · exact h.same (setHostCause_moves false _ s).enablesWithin (setHostCause_place ..)
  · exact h.same (.refl _) rfl

theorem MapFits.ite {p : Prop} [Decidable p] {s t : State} (hs : MapFits s) (ht : MapFits t) : MapFits (if p then s else t) := by
  split
  · exact hs
  · exact ht

theorem hostWrite_mapFits (off : BitVec 6) (w : Word) {s : State} (h : MapFits s) : MapFits (hostWrite off w s) := by
  unfold hostWrite
  dsimp only
  refine .ite (runCommand_mapFits _ h) ?_
  refine .ite (h.same (.refl _) rfl) ?_
  refine .ite (h.same (.refl _) rfl) ?_
  refine .ite (writeTimcfg_mapFits w h) ?_
  refine .ite (h.same (writeRefdiv_moves w s).enablesWithin (writeRefdiv_place w s)) ?_
  refine .ite (h.same (writePoolcfg_moves w s).enablesWithin (writePoolcfg_place w s)) ?_
  refine .ite (h.same (writeRingcfg_moves w s).enablesWithin (writeRingcfg_place w s)) ?_
  refine .ite (h.same (writeRxoffset_moves w s).enablesWithin (writeRxoffset_place w s)) ?_
  refine .ite (h.same (.refl _) rfl) ?_
  refine .ite (writeMapdata_mapFits w h) ?_
  refine .ite (writeMaphdr_mapFits w h) ?_
  refine .ite (h.same (writeChsel_moves w s).enablesWithin (writeChsel_place w s)) ?_
  refine .ite (h.same (setSticky_moves ..).enablesWithin rfl) ?_
  refine .ite (writeChcfg_mapFits _ w h) ?_
  refine .ite (h.same (writeTxdata_moves _ w s).enablesWithin (writeTxdata_place ..)) ?_
  exact .ite (h.same (.refl _) rfl) h

theorem MapFits.gated {f : State → State} {s : State} (h : MapFits s) (hf : MapFits (f s)) : MapFits (outOfReset f s) := by
  unfold outOfReset
  split
  · exact hf
  · exact h

theorem MapFits.of_next {o : Host.Outcome State Fault Refusal} {f : State → State} {s t : State} (h : MapFits s)
    (hnext : o = .next t) (ho : o = .next (outOfReset f s)) (hf : MapFits (f s)) : MapFits t := by
  rw [ho] at hnext
  obtain rfl := Host.Outcome.next.inj hnext
  exact h.gated hf

/-- A happening guarded by a condition. -/
theorem MapFits.guarded {p : Prop} [Decidable p] {s t : State} (h : MapFits s) (ht : p → MapFits t) :
    MapFits (if p then t else s) := by
  split
  · next hp => exact ht hp
  · exact h

theorem execRxdataRead_mapFits {s t : State} (h : MapFits s) (hnext : execRxdataRead s = .next t) : MapFits t := by
  unfold execRxdataRead at hnext
  split at hnext
  · split at hnext
    · obtain rfl := Host.Outcome.next.inj hnext
      exact h.same (.refl _) rfl
    · split at hnext
      · obtain rfl := Host.Outcome.next.inj hnext
        exact h.same (.refl _) rfl
      · split at hnext
        · cases hnext
        · obtain rfl := Host.Outcome.next.inj hnext
          exact h.same (.refl _) rfl
  · obtain rfl := Host.Outcome.next.inj hnext
    exact h

theorem readMapdata_mapFits {s : State} (h : MapFits s) : MapFits (readMapdata s) :=
  h.same (.refl _) (advanced_place s)

theorem exec_mapFits {i : Instr} {s t : State} (h : MapFits s) (hnext : exec i s = .next t) : MapFits t := by
  cases i with
  | resetAssert =>
    obtain rfl := Host.Outcome.next.inj hnext
    exact hardReset_mapFits s
  | resetRelease =>
    obtain rfl := Host.Outcome.next.inj hnext
    exact .ite h (h.same (.refl _) rfl)
  | softReset => exact h.of_next hnext rfl ((softReset_mapFits h).same (.refl _) rfl)
  | commit => exact h.of_next hnext rfl (commitCmd_mapFits h)
  | cancel => exact h.of_next hnext rfl (cancelCmd_mapFits h)
  | timingRestart => exact h.of_next hnext rfl (timingRestartCmd_mapFits h)
  | release => exact h.of_next hnext rfl (h.same (releaseCmd_moves s).enablesWithin (releaseCmd_place s))
  | flush c => exact h.of_next hnext rfl (h.same (flushCmd_moves c s).enablesWithin (flushCmd_place c s))
  | hostPause c => exact h.of_next hnext rfl (h.same (setHostCause_moves true c s).enablesWithin (setHostCause_place ..))
  | hostResume c => exact h.of_next hnext rfl (h.same (setHostCause_moves false c s).enablesWithin (setHostCause_place ..))
  | unknownCommand code => exact h.of_next hnext rfl (runCommand_mapFits code h)
  | timingEnable w => exact h.of_next hnext rfl (writeTimcfg_mapFits w h)
  | timingDisable w => exact h.of_next hnext rfl (writeTimcfg_mapFits w h)
  | rxEnableSet w => exact h.of_next hnext rfl (writeChcfg0_mapFits w h)
  | rxEnableClear w => exact h.of_next hnext rfl (writeChcfg0_mapFits w h)
  | txEnableSet w => exact h.of_next hnext rfl (writeChcfg0_mapFits w h)
  | txEnableClear w => exact h.of_next hnext rfl (writeChcfg0_mapFits w h)
  | fcEnableSet w => exact h.of_next hnext rfl (writeChcfg0_mapFits w h)
  | fcEnableClear w => exact h.of_next hnext rfl (writeChcfg0_mapFits w h)
  | chcfgWrite n w => exact h.of_next hnext rfl (writeChcfg_mapFits n w h)
  | txdata c w => exact h.of_next hnext rfl (h.same (writeTxdata_moves c w s).enablesWithin (writeTxdata_place ..))
  | mapdataWrite w => exact h.of_next hnext rfl (writeMapdata_mapFits w h)
  | mapdataRead => exact h.of_next hnext rfl (readMapdata_mapFits h)
  | maphdrWrite w => exact h.of_next hnext rfl (writeMaphdr_mapFits w h)
  | rxdataRead => exact execRxdataRead_mapFits h hnext
  | rxoffsetWrite w => exact h.of_next hnext rfl (h.same (writeRxoffset_moves w s).enablesWithin (writeRxoffset_place w s))
  | causeRead => exact h.of_next hnext rfl (h.same (readCause_moves s).enablesWithin (readCause_place s))
  | chstickyWrite w => exact h.of_next hnext rfl (h.same (setSticky_moves ..).enablesWithin rfl)
  | cmdstatWrite w => exact h.of_next hnext rfl (h.same (.refl _) rfl)
  | poolcfgWrite w => exact h.of_next hnext rfl (h.same (writePoolcfg_moves w s).enablesWithin (writePoolcfg_place w s))
  | ringcfgWrite w => exact h.of_next hnext rfl (h.same (writeRingcfg_moves w s).enablesWithin (writeRingcfg_place w s))
  | registerWrite off w => exact h.of_next hnext rfl (hostWrite_mapFits off w h)
  | syncPulse => exact h.of_next hnext rfl (syncPulseStep_mapFits h)
  | frameBoundary pulse => exact h.of_next hnext rfl (frameBoundaryStep_mapFits pulse h)
  | localFramePeriodEnd sense => exact h.of_next hnext rfl (periodEnd_mapFits sense h)
  | txSlot => exact h.of_next hnext rfl (txSlotStep_mapFits h)
  | echoResult => exact h.of_next hnext rfl (echoStep_mapFits h)
  | rxWord => exact h.of_next hnext rfl (rxWordStep_mapFits h)
  | listenWindow =>
    refine h.of_next hnext rfl (h.guarded fun hp => listenStep_mapFits h ?_)
    exact of_decide_eq_true (Bool.and_eq_true_iff.mp hp).1
  | holdoffLimit =>
    refine h.of_next hnext rfl (h.guarded fun hp => holdoffStep_mapFits h ?_)
    simp only [Timing.holdoffRuns, Bool.and_eq_true, decide_eq_true_eq] at hp
    obtain ⟨⟨⟨hst, -⟩, -⟩, -⟩ := hp
    exact hst
  | flywheelExpiry =>
    refine h.of_next hnext rfl (h.guarded fun hp => flywheelStep_mapFits h ?_)
    exact of_decide_eq_true (Bool.and_eq_true_iff.mp hp).1
  | clockLost =>
    refine h.of_next hnext rfl (h.guarded fun hp => clockWatch_mapFits h ?_)
    exact of_decide_eq_true (Bool.and_eq_true_iff.mp hp).1
  | debounceComplete =>
    refine h.of_next hnext rfl (h.guarded fun _ => sampleLine_mapFits _ ?_)
    exact h.same (.refl _) rfl
  | gapExpiry c =>
    exact h.of_next hnext rfl (h.guarded fun _ => h.same (gapStep_moves c s).enablesWithin (gapStep_place c s))
  | refresh c =>
    exact h.of_next hnext rfl (h.guarded fun _ => h.same (refreshStep_moves c s).enablesWithin (refreshStep_place c s))
  | holdExpired c =>
    exact h.of_next hnext rfl (h.guarded fun _ => h.same (holdStep_moves c s).enablesWithin (holdStep_place c s))
  | peerAbsent c =>
    exact h.of_next hnext rfl (h.guarded fun _ => h.same (peerStep_moves _ c s).enablesWithin (peerStep_place _ c s))
  | readyTimeout =>
    exact h.of_next hnext rfl (h.guarded fun _ => h.same (readyStep_moves s).enablesWithin (readyStep_place s))
  | switch => exact h.of_next hnext rfl (h.guarded fun hp => switchBanks_mapFits h hp)
  | hwclkRisingEdge sync data => exact h.of_next hnext rfl (risingEdge_mapFits sync data h)

theorem busRead_mapFits {off : BitVec 6} {s t : State} (h : MapFits s) (hnext : busRead off s = .next t) : MapFits t := by
  rcases busRead_cases off s with ⟨-, hr⟩ | ⟨-, -, hr⟩ | ⟨-, -, hr⟩ | ⟨-, -, hr⟩ | ⟨-, -, -, -, hr⟩ <;> rw [hr] at hnext
  · obtain rfl := Host.Outcome.next.inj hnext
    exact h.same (.refl _) rfl
  · exact execRxdataRead_mapFits h hnext
  · obtain rfl := Host.Outcome.next.inj hnext
    exact readMapdata_mapFits h
  · obtain rfl := Host.Outcome.next.inj hnext
    exact h.same (readCause_moves s).enablesWithin (readCause_place s)
  · obtain rfl := Host.Outcome.next.inj hnext
    exact h.same (.refl _) rfl

theorem takePin_mapFits {p : PinChange} {s t : State} (h : MapFits s) (hnext : takePin p s = .next t) : MapFits t := by
  rcases takePin_cases p s with ⟨b, v, l, d, hp⟩ | ⟨b, -, hp⟩ | ⟨b, -, hp⟩ <;> rw [hp] at hnext
  · obtain rfl := Host.Outcome.next.inj hnext
    exact h.same (.refl _) rfl
  · exact busRead_mapFits (s := { s with bus := b }) (h.same (.refl _) rfl) hnext
  · have hbus : MapFits { s with bus := b } := h.same (.refl _) rfl
    exact hbus.of_next hnext rfl (hostWrite_mapFits _ _ hbus)

theorem step_mapFits {s t : State} (h : MapFits s) (hnext : step s = .next t) : MapFits t := by
  rcases step_cases s with ⟨c, rest, -, hs⟩ | ⟨p, rest, -, -, hs⟩ | ⟨-, -, hs⟩ <;> rw [hs] at hnext
  · exact exec_mapFits (s := { s with pending := rest }) (h.same (.refl _) rfl) hnext
  · exact takePin_mapFits (s := { s with inputs := rest }) (h.same (.refl _) rfl) hnext
  · exact h.of_next hnext rfl (refclkTick_mapFits h)

/-- Settles O56: the two laws together are `MapFits`, which every step keeps. -/
theorem stepKeepsMapLaw : Obligations.StepKeepsMapLaw := by
  unfold Obligations.StepKeepsMapLaw
  intro s t hmap hslot h
  exact (mapFits_iff t).mp (step_mapFits ((mapFits_iff s).mpr ⟨hmap, hslot⟩) h)

end Sys2Proof.Machine
end

section
/-! PROOFS. Register words (spec 10, section 10.7): fields put at their positions are read there, and every other bit is 0. -/

namespace Sys2Proof.Machine

open Sys2Proof

/-! ## Fields at their positions -/

/-- Fields as lowest bit, length and value, in rising positions from a on, each value within its length and the last within the
sixteen bits. -/
def fieldsFit : Nat → List (Nat × Nat × Nat) → Prop
  | a, [] => a ≤ 16
  | a, (lo, len, v) :: fs => a ≤ lo ∧ v < 2 ^ len ∧ fieldsFit (lo + len) fs

/-- The number that the fields make. -/
def fieldsSum (fs : List (Nat × Nat × Nat)) : Nat := (fs.map fun f => f.2.2 * 2 ^ f.1).sum

/-- The word of the fields. -/
def fieldsWord (fs : List (Nat × Nat × Nat)) : Word := packWord (fs.map fun f => (f.1, f.2.2))

theorem fieldsWord_eq (fs : List (Nat × Nat × Nat)) : fieldsWord fs = BitVec.ofNat 16 (fieldsSum fs) := by
  have hfold : ∀ (l : List (Nat × Nat × Nat)) (n : Nat),
      (l.map fun f => (f.1, f.2.2)).foldl (fun acc f => acc + f.2 * 2 ^ f.1) n = n + fieldsSum l := by
    intro l
    induction l with
    | nil => intro n; rfl
    | cons f l ih => intro n; simp only [List.map_cons, List.foldl_cons, ih, fieldsSum, List.sum_cons]; omega
  rw [fieldsWord, packWord, hfold, Nat.zero_add]

theorem fieldsSum_dvd {a : Nat} {fs : List (Nat × Nat × Nat)} (h : fieldsFit a fs) : 2 ^ a ∣ fieldsSum fs := by
  induction fs generalizing a with
  | nil => exact dvd_zero _
  | cons f fs ih =>
    obtain ⟨lo, len, v⟩ := f
    obtain ⟨hlo, -, hrest⟩ := h
    refine Nat.dvd_add ((Nat.pow_dvd_pow 2 hlo).trans (Nat.dvd_mul_left ..)) ?_
    exact (Nat.pow_dvd_pow 2 (by omega)).trans (ih hrest)

/-- A bit of the number is that bit of the first field at or above it, or of the fields behind. -/
theorem fieldsSum_testBit {a lo len v : Nat} {fs : List (Nat × Nat × Nat)} (h : fieldsFit a ((lo, len, v) :: fs)) (j : Nat) :
    (fieldsSum ((lo, len, v) :: fs)).testBit j =
      if j < lo + len then decide (lo ≤ j) && v.testBit (j - lo) else (fieldsSum fs).testBit j := by
  obtain ⟨-, hv, hrest⟩ := h
  obtain ⟨q, hq⟩ := fieldsSum_dvd hrest
  have hlow : v * 2 ^ lo < 2 ^ (lo + len) := by
    rw [Nat.mul_comm, Nat.pow_add]; exact Nat.mul_lt_mul_of_pos_left hv (Nat.two_pow_pos lo)
  have hsum : fieldsSum ((lo, len, v) :: fs) = 2 ^ (lo + len) * q + v * 2 ^ lo := by
    rw [← hq, Nat.add_comm]; rfl
  rw [hsum, Nat.testBit_two_pow_mul_add _ hlow]
  split
  · rw [Nat.mul_comm, Nat.testBit_two_pow_mul]
  · rw [hq, Nat.testBit_two_pow_mul]
    next hj => rw [decide_eq_true (by omega : j ≥ lo + len), Bool.true_and]

theorem fieldsFit_start {a : Nat} {fs : List (Nat × Nat × Nat)} (h : fieldsFit a fs) {f : Nat × Nat × Nat} (hf : f ∈ fs) :
    a ≤ f.1 ∧ f.1 + f.2.1 ≤ 16 ∧ f.2.2 < 2 ^ f.2.1 := by
  induction fs generalizing a with
  | nil => cases hf
  | cons g fs ih =>
    obtain ⟨lo, len, v⟩ := g
    obtain ⟨hlo, hv, hrest⟩ := h
    have hend : ∀ (b : Nat) (l : List (Nat × Nat × Nat)), fieldsFit b l → b ≤ 16 := by
      intro b l
      induction l generalizing b with
      | nil => exact id
      | cons g l ihl => intro hg; have := ihl _ hg.2.2; have := hg.1; omega
    rcases List.mem_cons.mp hf with rfl | hf
    · exact ⟨hlo, hend _ _ hrest, hv⟩
    · obtain ⟨hstart, hrest'⟩ := ih hrest hf
      exact ⟨by omega, hrest'⟩

/-- Within a field the bits are the field's. -/
theorem testBit_of_mem {a lo len v : Nat} {fs : List (Nat × Nat × Nat)} (h : fieldsFit a fs) (hf : (lo, len, v) ∈ fs) {j : Nat}
    (hj : j < len) : (fieldsSum fs).testBit (lo + j) = v.testBit j := by
  induction fs generalizing a with
  | nil => cases hf
  | cons g fs ih =>
    obtain ⟨glo, glen, gv⟩ := g
    rw [fieldsSum_testBit h]
    rcases List.mem_cons.mp hf with heq | hf
    · obtain ⟨rfl, rfl, rfl⟩ : lo = glo ∧ len = glen ∧ v = gv := by simpa using heq
      rw [if_pos (by omega), decide_eq_true (by omega), Bool.true_and, Nat.add_sub_cancel_left]
    · obtain ⟨hstart, -⟩ := fieldsFit_start h.2.2 hf
      rw [if_neg (by omega)]
      exact ih h.2.2 hf

/-- Outside every field the bits are 0. -/
theorem testBit_of_gap {a : Nat} {fs : List (Nat × Nat × Nat)} (h : fieldsFit a fs) {j : Nat}
    (hj : ∀ f ∈ fs, j < f.1 ∨ f.1 + f.2.1 ≤ j) : (fieldsSum fs).testBit j = false := by
  induction fs generalizing a with
  | nil => exact Nat.zero_testBit j
  | cons g fs ih =>
    obtain ⟨lo, len, v⟩ := g
    rw [fieldsSum_testBit h]
    have hrest := ih h.2.2 fun f hf => hj f (List.mem_cons_of_mem _ hf)
    rcases hj _ List.mem_cons_self with hlt | hge
    · rw [decide_eq_false (by simpa using hlt), Bool.false_and, hrest, ite_self]
    · rw [if_neg (by simpa using hge), hrest]

/-! ## What a word of fields reads -/

theorem fieldsWord_getLsbD {fs : List (Nat × Nat × Nat)} (j : Nat) (hj : j < 16) :
    (fieldsWord fs).getLsbD j = (fieldsSum fs).testBit j := by
  rw [fieldsWord_eq, BitVec.getLsbD_ofNat, decide_eq_true hj, Bool.true_and]

/-- A field reads at its position (section 10.7). -/
theorem field_read {a lo len v : Nat} {fs : List (Nat × Nat × Nat)} (h : fieldsFit a fs) (hf : (lo, len, v) ∈ fs) :
    ((fieldsWord fs).extractLsb' lo len).toNat = v := by
  obtain ⟨-, hend, hv⟩ := fieldsFit_start h hf
  have hbits : (fieldsWord fs).extractLsb' lo len = BitVec.ofNat len v := by
    refine BitVec.eq_of_getLsbD_eq fun j hj => ?_
    dsimp only at hend
    rw [BitVec.getLsbD_extractLsb', BitVec.getLsbD_ofNat, fieldsWord_getLsbD _ (by omega), testBit_of_mem h hf hj]
  rw [hbits, BitVec.toNat_ofNat, Nat.mod_eq_of_lt hv]

/-- A flag reads at its position. -/
theorem flag_read {a lo : Nat} {b : Bool} {fs : List (Nat × Nat × Nat)} (h : fieldsFit a fs) (hf : (lo, 1, flagNat b) ∈ fs) :
    (fieldsWord fs).getLsbD lo = b := by
  obtain ⟨-, hend, -⟩ := fieldsFit_start h hf
  dsimp only at hend
  have hbit := testBit_of_mem h hf Nat.zero_lt_one
  rw [Nat.add_zero] at hbit
  rw [fieldsWord_getLsbD _ (by omega), hbit]
  cases b <;> rfl

/-- A position without a field reads 0 (R179). -/
theorem gap_read {a : Nat} {fs : List (Nat × Nat × Nat)} (h : fieldsFit a fs) {j : Nat}
    (hj : ∀ f ∈ fs, j < f.1 ∨ f.1 + f.2.1 ≤ j) : (fieldsWord fs).getLsbD j = false := by
  rw [fieldsWord_eq, BitVec.getLsbD_ofNat, testBit_of_gap h hj, Bool.and_false]

theorem flagNat_lt (b : Bool) : flagNat b < 2 := by cases b <;> decide

theorem ofNat_read (v : Nat) (len : Nat) (h : v < 2 ^ len) (hlen : len ≤ 16) :
    ((packWord [(0, v)]).extractLsb' 0 len).toNat = v :=
  field_read (a := 0) (fs := [(0, len, v)]) ⟨le_rfl, h, by simpa [fieldsFit] using hlen⟩ List.mem_cons_self

/-! ## Words of flags -/

/-- Flags as fields of one bit. -/
def flagFields {α : Type} (view : List (Nat × α)) (f : α → Bool) : List (Nat × Nat × Nat) :=
  view.map fun p => (p.1, 1, flagNat (f p.2))

theorem packWord_flags {α : Type} (view : List (Nat × α)) (f : α → Bool) :
    packWord (view.map fun p => (p.1, flagNat (f p.2))) = fieldsWord (flagFields view f) := by
  simp [fieldsWord, flagFields, Function.comp_def]

/-- Positions that rise from a on, below 16. -/
def risesFrom : Nat → List Nat → Bool
  | a, [] => decide (a ≤ 16)
  | a, i :: is => decide (a ≤ i) && risesFrom (i + 1) is

theorem flagFields_fit {α : Type} {view : List (Nat × α)} (f : α → Bool) {a : Nat} (h : risesFrom a (view.map Prod.fst) = true) :
    fieldsFit a (flagFields view f) := by
  induction view generalizing a with
  | nil => simpa [risesFrom, flagFields, fieldsFit] using h
  | cons p view ih =>
    obtain ⟨ha, hrest⟩ := Bool.and_eq_true_iff.mp h
    exact ⟨of_decide_eq_true ha, flagNat_lt _, ih hrest⟩

theorem flags_read {α : Type} {view : List (Nat × α)} (f : α → Bool) (h : risesFrom 0 (view.map Prod.fst) = true) {i : Nat} {x : α}
    (hx : (i, x) ∈ view) : (packWord (view.map fun p => (p.1, flagNat (f p.2)))).getLsbD i = f x := by
  rw [packWord_flags]
  exact flag_read (flagFields_fit f h) (List.mem_map.mpr ⟨(i, x), hx, rfl⟩)

theorem flags_gap {α : Type} {view : List (Nat × α)} (f : α → Bool) (h : risesFrom 0 (view.map Prod.fst) = true) {i : Nat}
    (hi : i ∉ view.map Prod.fst) : (packWord (view.map fun p => (p.1, flagNat (f p.2)))).getLsbD i = false := by
  rw [packWord_flags]
  refine gap_read (flagFields_fit f h) fun g hg => ?_
  obtain ⟨p, hp, rfl⟩ := List.mem_map.mp hg
  have hne : i ≠ p.1 := fun he => hi (List.mem_map.mpr ⟨p, hp, he.symm⟩)
  dsimp only
  omega

end Sys2Proof.Machine
end

section
/-! PROOFS. The host port and the bus (spec 10): steps by kind, the row of a write and the write of a row, the two resets, the
strobes of the host bus. -/

namespace Sys2Proof.Machine

open Sys2Proof

/-! ## One step -/

/-- Settles O1: the front command is what a step takes first. -/
theorem stepRunsFrontCommand : Obligations.StepRunsFrontCommand := fun _ _ _ => rfl

theorem refclkTick_bit {s : State} (h : s.gen.ref + 1 < s.gen.div) :
    refclkTick s = { s with gen := { s.gen with ref := s.gen.ref + 1 } } := if_pos h

theorem refclkTick_nextBit {s : State} (h : s.gen.div ≤ s.gen.ref + 1) (hb : s.gen.bit + 1 < 11 * s.gen.len) :
    refclkTick s = { s with
      gen := { s.gen with div := s.tim.refdiv, ref := 0, bit := s.gen.bit + 1 }
      dataHeld := if s.dataHeld = .toLocalBit then .released else s.dataHeld } := by
  rw [← DataHold.atLocalBit_eq, refclkTick, if_neg (Nat.not_lt.mpr h), if_pos hb]

theorem refclkTick_periodEnd {s : State} (h : s.gen.div ≤ s.gen.ref + 1) (hb : 11 * s.gen.len ≤ s.gen.bit + 1) :
    refclkTick s = periodEnd s.hwsense s := by
  rw [refclkTick, if_neg (Nat.not_lt.mpr h), if_neg (Nat.not_lt.mpr hb)]

/-- Settles O2, by where the local bit period and the local frame period stand. -/
theorem emptyQueueStepsTheGenerator : Obligations.EmptyQueueStepsTheGenerator := by
  unfold Obligations.EmptyQueueStepsTheGenerator
  intro s hp hi
  rw [step_idle hp hi]
  refine ⟨fun hr => by rw [outOfReset_low _ hr], fun hr h => by rw [outOfReset_high _ hr, refclkTick_bit h],
    fun hr h hb => by rw [outOfReset_high _ hr, refclkTick_nextBit h hb], fun hr h hb => ?_⟩
  rw [outOfReset_high _ hr, refclkTick_periodEnd h hb]
  exact congrArg _ (outOfReset_high (periodEnd s.hwsense) hr).symm

/-! ## A host write and its row (R174, R176) -/

theorem chanOf_add (c : Chan) {a : Nat} (h : a % 8 = 0) : chanOf (a + c.val) = c := by
  apply Fin.ext
  have := c.isLt
  simp only [chanOf]
  omega

theorem toNat_ofNat_of_lt {n k : Nat} (h : k < 2 ^ n) : (BitVec.ofNat n k).toNat = k := by
  rw [BitVec.toNat_ofNat, Nat.mod_eq_of_lt h]

theorem ofCommandCode_unnamed {code : BitVec 8} (h : WellFormed.codeNamed code = false) :
    ofCommandCode code = .unknownCommand code := by
  simp only [WellFormed.codeNamed, Bool.or_eq_false_iff, Bool.and_eq_false_iff, decide_eq_false_iff_not] at h
  unfold ofCommandCode
  dsimp only
  rw [if_neg (by omega), if_neg (by omega), if_neg (by omega), if_neg (by omega), if_neg (by omega), if_neg (by omega),
    if_neg (by omega), if_neg (by omega)]

theorem ofBusWrite_withoutRow {off : BitVec 6} (h : WellFormed.offsetHasRow off = false) (w : Word) :
    ofBusWrite off w = .registerWrite off w := by
  simp only [WellFormed.offsetHasRow, Bool.or_eq_false_iff, Bool.and_eq_false_iff, decide_eq_false_iff_not] at h
  unfold ofBusWrite
  dsimp only
  rw [if_neg (by omega), if_neg (by omega), if_neg (by omega), if_neg (by omega), if_neg (by omega), if_neg (by omega),
    if_neg (by omega), if_neg (by omega), if_neg (by omega), if_neg (by omega)]

theorem ofBusWrite_chcfg (n : Fin 8) (w : Word) : ofBusWrite (BitVec.ofNat 6 (0x18 + n.val)) w = .chcfgWrite n w := by
  fin_cases n <;> rfl

theorem ofBusWrite_txdata (c : Chan) (w : Word) : ofBusWrite (BitVec.ofNat 6 (0x20 + c.val)) w = .txdata c w := by
  fin_cases c <;> rfl

/-- From the write of a well-formed row the port names that row. -/
theorem ofBusWrite_busWrite {i : Instr} {off : BitVec 6} {w : Word} (hwf : i.wf = true) (hen : i.changesEnable = false)
    (h : busWrite i = some (off, w)) : ofBusWrite off w = i := by
  cases i
  case timingEnable | timingDisable | rxEnableSet | rxEnableClear | txEnableSet | txEnableClear | fcEnableSet | fcEnableClear =>
    cases hen
  case softReset | commit | cancel | timingRestart | release => cases h; rfl
  case flush c | hostPause c | hostResume c => cases h; fin_cases c <;> rfl
  case unknownCommand code =>
    cases h
    have hw : (code.setWidth 16).setWidth 8 = code := by simp
    change ofCommandCode ((code.setWidth 16).setWidth 8) = _
    rw [hw]
    exact ofCommandCode_unnamed (by simpa [Instr.wf] using hwf)
  case chcfgWrite n w => cases h; exact ofBusWrite_chcfg n w
  case txdata c w => cases h; exact ofBusWrite_txdata c w
  case registerWrite off w => cases h; exact ofBusWrite_withoutRow (by simpa [Instr.wf] using hwf) w
  case mapdataWrite | maphdrWrite | rxoffsetWrite | chstickyWrite | cmdstatWrite | poolcfgWrite | ringcfgWrite => cases h; rfl
  all_goals cases h

/-- A row and the write it stands for. -/
def rowOf (i : Instr) (off : BitVec 6) (w : Word) : Prop := i.wf = true ∧ busWrite i = some (off, w)

theorem ofCommandCode_rowOf (code : BitVec 8) : rowOf (ofCommandCode code) 0x01 (code.setWidth 16) := by
  have hlit : ∀ k : Nat, code.toNat = k → code.setWidth 16 = BitVec.ofNat 16 k := fun k h => by
    apply BitVec.eq_of_toNat_eq
    rw [BitVec.toNat_setWidth, BitVec.toNat_ofNat, h]
  unfold ofCommandCode
  dsimp only
  split
  next h => exact ⟨rfl, congrArg (fun v => some (1, v)) (hlit _ h).symm⟩
  split
  next h => exact ⟨rfl, congrArg (fun v => some (1, v)) (hlit _ h).symm⟩
  split
  next h => exact ⟨rfl, congrArg (fun v => some (1, v)) (hlit _ h).symm⟩
  split
  next h => exact ⟨rfl, congrArg (fun v => some (1, v)) (hlit _ h).symm⟩
  split
  next h => exact ⟨rfl, congrArg (fun v => some (1, v)) (hlit _ h).symm⟩
  split
  next h => exact ⟨rfl, congrArg (fun v => some (1, v)) (hlit _ (by simp only [chanOf]; omega)).symm⟩
  split
  next h => exact ⟨rfl, congrArg (fun v => some (1, v)) (hlit _ (by simp only [chanOf]; omega)).symm⟩
  split
  next h => exact ⟨rfl, congrArg (fun v => some (1, v)) (hlit _ (by simp only [chanOf]; omega)).symm⟩
  refine ⟨?_, rfl⟩
  simp only [Instr.wf, WellFormed.codeNamed, Bool.not_eq_true', Bool.or_eq_false_iff, Bool.and_eq_false_iff,
    decide_eq_false_iff_not]
  omega

theorem setWidth_setWidth_eq_and (w : Word) : (w.setWidth 8).setWidth 16 = w &&& 0x00FF := by
  apply BitVec.eq_of_toNat_eq
  rw [BitVec.toNat_setWidth, BitVec.toNat_setWidth, BitVec.toNat_and]
  change _ = w.toNat &&& (2 ^ 8 - 1)
  rw [Nat.and_two_pow_sub_one_eq_mod]
  omega

/-- The row that the port names for a write stands for that write, bits 15-8 of a COMMAND word being ignored. -/
theorem ofBusWrite_rowOf (off : BitVec 6) (w : Word) :
    rowOf (ofBusWrite off w) off (if off = 0x01 then w &&& 0x00FF else w) := by
  have hlit : ∀ k : Nat, off.toNat = k → BitVec.ofNat 6 k = off := fun k h => by
    apply BitVec.eq_of_toNat_eq
    rw [BitVec.toNat_ofNat, ← h, Nat.mod_eq_of_lt off.isLt]
  by_cases h1 : off = 0x01
  · subst h1
    rw [if_pos rfl, ← setWidth_setWidth_eq_and]
    exact ofCommandCode_rowOf _
  have hne : off.toNat ≠ 0x01 := fun h => h1 (hlit _ h).symm
  rw [if_neg h1]
  unfold ofBusWrite
  dsimp only
  rw [if_neg hne]
  split
  next h => exact ⟨rfl, congrArg (fun v => some (v, w)) (hlit _ h)⟩
  split
  next h => exact ⟨rfl, congrArg (fun v => some (v, w)) (hlit _ h)⟩
  split
  next h => exact ⟨rfl, congrArg (fun v => some (v, w)) (hlit _ h)⟩
  split
  next h => exact ⟨rfl, congrArg (fun v => some (v, w)) (hlit _ h)⟩
  split
  next h => exact ⟨rfl, congrArg (fun v => some (v, w)) (hlit _ h)⟩
  split
  next h => exact ⟨rfl, congrArg (fun v => some (v, w)) (hlit _ h)⟩
  split
  next h => exact ⟨rfl, congrArg (fun v => some (v, w)) (hlit _ h)⟩
  split
  next h => exact ⟨rfl, congrArg (fun v => some (v, w)) (hlit _ (by simp only [chanOf]; omega))⟩
  split
  next h => exact ⟨rfl, congrArg (fun v => some (v, w)) (hlit _ (by simp only [chanOf]; omega))⟩
  refine ⟨?_, rfl⟩
  simp only [Instr.wf, WellFormed.offsetHasRow, Bool.not_eq_true', Bool.or_eq_false_iff, Bool.and_eq_false_iff,
    decide_eq_false_iff_not]
  omega

/-- Settles O4. -/
theorem hostWriteNamesItsRow : Obligations.HostWriteNamesItsRow := by
  unfold Obligations.HostWriteNamesItsRow
  exact ⟨fun _ _ _ => ofBusWrite_busWrite, ofBusWrite_rowOf⟩

/-! ## What a row does and what its write does -/

theorem hostWrite_chcfg (n : Fin 8) (w : Word) (s : State) :
    hostWrite (BitVec.ofNat 6 (0x18 + n.val)) w s = writeChcfg n w s := by
  fin_cases n <;> rfl

theorem hostWrite_txdata (c : Chan) (w : Word) (s : State) :
    hostWrite (BitVec.ofNat 6 (0x20 + c.val)) w s = writeTxdata c w s := by
  fin_cases c <;> rfl

theorem hostWrite_flush (c : Chan) (s : State) : hostWrite 0x01 (BitVec.ofNat 16 (0x10 + c.val)) s = flushCmd c s := by
  fin_cases c <;> rfl

theorem hostWrite_hostPause (c : Chan) (s : State) :
    hostWrite 0x01 (BitVec.ofNat 16 (0x20 + c.val)) s = hostPauseCmd c s := by
  fin_cases c <;> rfl

theorem hostWrite_hostResume (c : Chan) (s : State) :
    hostWrite 0x01 (BitVec.ofNat 16 (0x28 + c.val)) s = hostResumeCmd c s := by
  fin_cases c <;> rfl

theorem outOfReset_congr {f g : State → State} (s : State) (h : f s = g s) : outOfReset f s = outOfReset g s := by
  unfold outOfReset
  rw [h]

/-- Settles O5, row by row. -/
theorem hostWriteRowsActAsTheirWrite : Obligations.HostWriteRowsActAsTheirWrite := by
  unfold Obligations.HostWriteRowsActAsTheirWrite
  intro i off w s h
  cases i
  case flush c => cases h; exact congrArg _ (outOfReset_congr s (hostWrite_flush c s).symm)
  case hostPause c => cases h; exact congrArg _ (outOfReset_congr s (hostWrite_hostPause c s).symm)
  case hostResume c => cases h; exact congrArg _ (outOfReset_congr s (hostWrite_hostResume c s).symm)
  case chcfgWrite n w => cases h; exact congrArg _ (outOfReset_congr s (hostWrite_chcfg n w s).symm)
  case txdata c w => cases h; exact congrArg _ (outOfReset_congr s (hostWrite_txdata c w s).symm)
  case unknownCommand code =>
    cases h
    have hw : (code.setWidth 16).setWidth 8 = code := by simp
    refine congrArg _ (outOfReset_congr s ?_)
    change runCommand code s = runCommand ((code.setWidth 16).setWidth 8) s
    rw [hw]
  case registerWrite off w => cases h; rfl
  case softReset | commit | cancel | timingRestart | release => cases h; rfl
  case timingEnable | timingDisable | rxEnableSet | rxEnableClear | txEnableSet | txEnableClear | fcEnableSet | fcEnableClear =>
    cases h; rfl
  case mapdataWrite | maphdrWrite | rxoffsetWrite | chstickyWrite | cmdstatWrite | poolcfgWrite | ringcfgWrite => cases h; rfl
  all_goals cases h

/-! ## The hard reset (R171, R172) -/

theorem exec_of_low {c : Instr} {s : State} (h : s.resetn = false) (ha : c ≠ .resetAssert) (hr : c ≠ .resetRelease) :
    exec c s = .next s := by
  cases c
  case resetAssert => exact absurd rfl ha
  case resetRelease => exact absurd rfl hr
  case rxdataRead => exact (congrArg (fun b : Bool => if b = true then _ else Host.Outcome.next s) h).trans rfl
  all_goals exact congrArg _ (outOfReset_low _ h)

theorem readRegister_low {s : State} (h : s.resetn = false) (off : BitVec 6) : readRegister s off = 0 := by
  unfold readRegister
  rw [h]
  rfl

/-- Settles O7: the hard-reset state holds every field's default, and while RESETn is low the gate lets no command through. -/
theorem hardResetHoldsUntilRelease : Obligations.HardResetHoldsUntilRelease := by
  unfold Obligations.HardResetHoldsUntilRelease
  refine ⟨fun s => ⟨s.hardReset, rfl, rfl, rfl, rfl, rfl, rfl, readRegister_low rfl, rfl, rfl⟩, fun s h => ?_,
    fun c s => exec_of_low⟩
  change Host.Outcome.next (if s.resetn then s else { s with resetn := true, gen := {} }) = _
  rw [h]
  rfl

/-- Settles O8. -/
theorem resetValuesRead : Obligations.ResetValuesRead := by
  unfold Obligations.ResetValuesRead
  decide +kernel

/-! ## The soft reset (R171, R173) -/

theorem softReset_map_pending {m : MapUnit} (h : m.commit = .pending) :
    m.softReset = { m with commit := .idle, result := .cancelled, reason := .none, detail := 0 } := if_pos h

theorem softReset_map_idle {m : MapUnit} (h : m.commit = .idle) : m.softReset = m := by
  rw [MapUnit.softReset, if_neg (by rw [h]; decide)]

/-- Settles O9. -/
theorem softResetKeepsConfiguration : Obligations.SoftResetKeepsConfiguration := by
  unfold Obligations.SoftResetKeepsConfiguration
  intro s hs
  refine ⟨softResetCmd s, congrArg _ (outOfReset_high _ hs), rfl, rfl, rfl, rfl, ?_, ?_, softReset_map_pending,
    softReset_map_idle, softReset_chan s, rfl, rfl, rfl, rfl, rfl⟩
  · rw [← DataHold.pulls_eq]
    exact dropSlot_pulls s
  · exact fun hh hp => dropSlot_hold hh hp

end Sys2Proof.Machine
end

section
/-! PROOFS. Slot words (spec 01, R4 to R7, R12): parity, the eleven bits in order, the class of every received word. -/

namespace Sys2Proof.Machine

open Sys2Proof

/-! ## The bits of a slot word -/

theorem wordBits_getElem? (w : SlotWord) {k : Nat} (h : k < 11) : (wordBits w)[k]? = some (w.getLsbD (10 - k)) := by
  rw [wordBits, List.getElem?_map, List.getElem?_range h, Option.map_some, BitVec.getMsbD_eq_getLsbD, decide_eq_true h,
    Bool.true_and]

@[simp] theorem wordBits_length (w : SlotWord) : (wordBits w).length = 11 := by simp [wordBits]

theorem range_eleven : List.range 11 = [0, 1, 2, 3, 4, 5, 6, 7, 8, 9, 10] := by decide

theorem count_wordBits (w : SlotWord) : (wordBits w).count true = onesCount w := by
  have hflip : wordBits w = ((List.range 11).map fun i => w.getLsbD i).reverse := by
    rw [wordBits, range_eleven]
    simp [BitVec.getMsbD_eq_getLsbD]
  rw [hflip, List.count_reverse, onesCount, List.count, List.countP_map]
  exact List.countP_congr fun i _ => by simp

/-- One more bit moves the word up and takes the lowest place. -/
theorem wordOfBits_append (l : List Bool) (b : Bool) :
    wordOfBits (l ++ [b]) = (wordOfBits l <<< 1) ||| (if b then 1 else 0) := by
  simp [wordOfBits]

theorem wordOfBits_getLsbD (l : List Bool) (i : Nat) (h : i < 11) : (wordOfBits l).getLsbD i = l.reverse.getD i false := by
  induction l using List.reverseRecOn generalizing i with
  | nil => simp [wordOfBits]
  | append_singleton l b ih =>
    rw [wordOfBits_append, List.reverse_append, BitVec.getLsbD_or, BitVec.getLsbD_shiftLeft]
    cases i with
    | zero => cases b <;> simp
    | succ n =>
      have hone : (if b = true then (1 : SlotWord) else 0).getLsbD (n + 1) = false := by
        cases b <;> simp
      rw [hone, Nat.add_sub_cancel, ih n (by omega)]
      simp [h]

theorem wordOfBits_wordBits (w : SlotWord) : wordOfBits (wordBits w) = w := by
  refine BitVec.eq_of_getLsbD_eq fun i hi => ?_
  rw [wordOfBits_getLsbD _ i hi, List.getD_eq_getElem?_getD, List.getElem?_reverse (by simpa using hi), wordBits_length,
    wordBits_getElem? w (by omega)]
  simp only [Option.getD_some]
  congr 1
  omega

/-! ## The word the part builds (R4) -/

/-- The ten bits of tag and payload. -/
def tenBits (t : Tag) (b : Byte) : BitVec 10 := t.bits ++ b

/-- The parity bit. -/
def parityBit (t : Tag) (b : Byte) : BitVec 1 := if onesCount ((tenBits t b).setWidth 11) % 2 = 1 then 1#1 else 0#1

theorem buildWord_eq (t : Tag) (b : Byte) : buildWord t b = tenBits t b ++ parityBit t b := rfl

theorem tagBitsOf_buildWord (t : Tag) (b : Byte) : tagBitsOf (buildWord t b) = t.bits := by
  refine BitVec.eq_of_getLsbD_eq fun i hi => ?_
  have hpar : ¬ 9 + i < 1 := by omega
  have hpay : ¬ 9 + i - 1 < 8 := by omega
  have hlast : 9 + i - 1 - 8 = i := by omega
  rw [tagBitsOf, buildWord_eq, BitVec.getLsbD_extractLsb', BitVec.getLsbD_append, if_neg hpar, tenBits, BitVec.getLsbD_append,
    if_neg hpay, hlast, decide_eq_true hi, Bool.true_and]

theorem payloadOf_buildWord (t : Tag) (b : Byte) : payloadOf (buildWord t b) = b := by
  refine BitVec.eq_of_getLsbD_eq fun i hi => ?_
  have hpar : ¬ 1 + i < 1 := by omega
  have hpay : 1 + i - 1 < 8 := by omega
  rw [payloadOf, buildWord_eq, BitVec.getLsbD_extractLsb', BitVec.getLsbD_append, if_neg hpar, tenBits, BitVec.getLsbD_append,
    if_pos hpay, Nat.add_sub_cancel_left, decide_eq_true hi, Bool.true_and]

/-- The ones of eleven bits are those of the upper ten and the lowest. -/
theorem onesCount_append (ten : BitVec 10) (p : BitVec 1) :
    onesCount (ten ++ p) = onesCount (ten.setWidth 11) + (if p.getLsbD 0 then 1 else 0) := by
  have hzero : ten.getLsbD 10 = false := BitVec.getLsbD_of_ge _ _ (Nat.le_refl 10)
  simp only [onesCount, range_eleven, List.countP_cons, List.countP_nil, BitVec.getLsbD_append, BitVec.getLsbD_setWidth, hzero]
  simp

theorem onesCount_buildWord (t : Tag) (b : Byte) : onesCount (buildWord t b) % 2 = 0 := by
  rw [buildWord_eq, onesCount_append, parityBit]
  split
  next h => simp; omega
  next h => simp; omega

theorem ne_allOnes_of_even {w : SlotWord} (h : onesCount w % 2 = 0) : w ≠ BitVec.allOnes 11 := by
  rintro rfl
  exact absurd h (by decide)

/-! ## Classification (R12) -/

/-- The class of a word that is neither SILENT nor corrupt, by its tag and its payload. -/
def classOf (t : Tag) (b : Byte) : RxClass :=
  match t with
  | .idle => .idle
  | .data => .data b
  | .last => .last b
  | .ctrl => if b = codePause then .pause else if b = codeResume then .resume else if b = codeAbort then .abort else .unknownCtrl

theorem classOf_ne_silent (t : Tag) (b : Byte) : classOf t b ≠ .silent := by
  cases t with
  | ctrl => simp only [classOf]; split_ifs <;> simp
  | _ => simp [classOf]

theorem classOf_ne_corrupt (t : Tag) (b : Byte) : classOf t b ≠ .corrupt := by
  cases t with
  | ctrl => simp only [classOf]; split_ifs <;> simp
  | _ => simp [classOf]

theorem classify_eq (w : SlotWord) :
    classify w = if w = BitVec.allOnes 11 then .silent
      else if onesCount w % 2 = 1 then .corrupt else classOf (tagOf (tagBitsOf w)) (payloadOf w) := by
  unfold classify classOf
  rfl

theorem classify_of_even {w : SlotWord} (h : onesCount w % 2 = 0) :
    classify w = classOf (tagOf (tagBitsOf w)) (payloadOf w) := by
  rw [classify_eq, if_neg (ne_allOnes_of_even h), if_neg (by omega)]

theorem classify_silent_iff (w : SlotWord) : classify w = .silent ↔ w = BitVec.allOnes 11 := by
  rw [classify_eq]
  split_ifs with hs hc
  · exact iff_of_true rfl hs
  · exact iff_of_false id hs
  · exact iff_of_false (classOf_ne_silent _ _) hs

theorem classify_corrupt_iff (w : SlotWord) :
    classify w = .corrupt ↔ w ≠ BitVec.allOnes 11 ∧ onesCount w % 2 = 1 := by
  rw [classify_eq]
  split_ifs with hs hc
  · exact iff_of_false id fun h => h.1 hs
  · exact iff_of_true rfl ⟨hs, hc⟩
  · exact iff_of_false (classOf_ne_corrupt _ _) fun h => hc h.2

theorem tagOf_bits (t : Tag) : tagOf t.bits = t := by cases t <;> rfl

theorem tagOf_eq (t : BitVec 2) :
    tagOf t = if t.toNat = 0 then .idle else if t.toNat = 1 then .data else if t.toNat = 2 then .last else .ctrl := by
  simp only [tagOf, ← BitVec.toNat_inj]
  rfl

theorem classify_buildWord (t : Tag) (b : Byte) : classify (buildWord t b) = classOf t b := by
  rw [classify_of_even (onesCount_buildWord t b), tagBitsOf_buildWord, payloadOf_buildWord, tagOf_bits]

theorem tag_bits_toNat (t : Tag) :
    t.bits.toNat = (match t with | .idle => 0 | .data => 1 | .last => 2 | .ctrl => 3) := by cases t <;> rfl

/-- Settles O6. -/
theorem slotWordsAreReadAsSent : Obligations.SlotWordsAreReadAsSent := by
  unfold Obligations.SlotWordsAreReadAsSent
  refine ⟨fun t b => ⟨?_, payloadOf_buildWord t b, ?_, ne_allOnes_of_even (onesCount_buildWord t b), wordOfBits_wordBits _,
    wordBits_length _, ?_⟩, fun w => ⟨fun k => wordBits_getElem? w k.isLt, classify_silent_iff w, ?_, fun _ heven => ?_⟩⟩
  · exact (congrArg BitVec.toNat (tagBitsOf_buildWord t b)).trans (tag_bits_toNat t)
  · rw [count_wordBits]
    exact onesCount_buildWord t b
  · rw [classify_buildWord]
    cases t <;> rfl
  · rw [count_wordBits]
    exact classify_corrupt_iff w
  · rw [count_wordBits] at heven
    dsimp only
    rw [classify_buildWord, classify_of_even heven, tagOf_eq]
    rfl

end Sys2Proof.Machine
end

section
/-! PROOFS. Registers (spec 10, sections 10.6 and 10.7): words stored and read back, the flags written one to clear, MAPDATA, the
enables and INTn. -/

namespace Sys2Proof.Machine

open Sys2Proof

/-! ## Words by their shape -/

/-- The lowest bits and lengths of fields. -/
def shapeOf (fs : List (Nat × Nat × Nat)) : List (Nat × Nat) := fs.map fun f => (f.1, f.2.1)

/-- Positions and lengths that rise from a on, within the sixteen bits. -/
def shapeFits : Nat → List (Nat × Nat) → Bool
  | a, [] => decide (a ≤ 16)
  | a, p :: ps => decide (a ≤ p.1) && shapeFits (p.1 + p.2) ps

theorem fieldsFit_of_shape {fs : List (Nat × Nat × Nat)} {a : Nat} (h : shapeFits a (shapeOf fs) = true)
    (hv : ∀ f ∈ fs, f.2.2 < 2 ^ f.2.1) : fieldsFit a fs := by
  induction fs generalizing a with
  | nil => simpa [shapeOf, shapeFits, fieldsFit] using h
  | cons f fs ih =>
    obtain ⟨ha, hrest⟩ := Bool.and_eq_true_iff.mp h
    exact ⟨of_decide_eq_true ha, hv f List.mem_cons_self, ih hrest fun g hg => hv g (List.mem_cons_of_mem _ hg)⟩

/-- Bit j lies in a field of the shape. -/
def covers (ps : List (Nat × Nat)) (j : Nat) : Bool := ps.any fun p => decide (p.1 ≤ j) && decide (j < p.1 + p.2)

theorem not_covered {fs : List (Nat × Nat × Nat)} {j : Nat} (h : covers (shapeOf fs) j = false) :
    ∀ f ∈ fs, j < f.1 ∨ f.1 + f.2.1 ≤ j := by
  intro f hf
  have hf' : (f.1, f.2.1) ∈ shapeOf fs := List.mem_map.mpr ⟨f, hf, rfl⟩
  have := List.any_eq_false.mp h _ hf'
  simp only [Bool.and_eq_true, decide_eq_true_eq] at this
  omega

/-- Where a mask covers no field the word shows 0. -/
theorem fieldsWord_and_gaps {fs : List (Nat × Nat × Nat)} {a : Nat} (hfit : fieldsFit a fs) {m : Word} {ps : List (Nat × Nat)}
    (hps : shapeOf fs = ps) (hm : ∀ j : Fin 16, m.getLsbD j = true → covers ps j = false) : fieldsWord fs &&& m = 0 := by
  refine BitVec.eq_of_getLsbD_eq fun j hj => ?_
  rw [BitVec.getLsbD_and]
  cases hb : m.getLsbD j with
  | false => simp
  | true =>
    subst hps
    rw [gap_read hfit (not_covered (hm ⟨j, hj⟩ hb))]
    simp

/-- The fields of a shape as a word holds them. -/
def fieldsOf (w : Word) (ps : List (Nat × Nat)) : List (Nat × Nat × Nat) := ps.map fun p => (p.1, p.2, field w p.1 p.2)

theorem field_lt_two_pow (w : Word) (lo len : Nat) : field w lo len < 2 ^ len := Nat.mod_lt _ (Nat.two_pow_pos len)

theorem testBit_field (w : Word) (lo len i : Nat) : (field w lo len).testBit i = (decide (i < len) && w.getLsbD (lo + i)) := by
  rw [field, Nat.testBit_mod_two_pow, Nat.testBit_div_two_pow, BitVec.testBit_toNat, Nat.add_comm]

/-- What is stored from the fields of a word reads back as that word under the mask of its fields. -/
theorem fieldsWord_fieldsOf (w : Word) {m : Word} (ps : List (Nat × Nat)) (hfit : shapeFits 0 ps = true)
    (hm : ∀ j : Fin 16, m.getLsbD j = covers ps j) : fieldsWord (fieldsOf w ps) = w &&& m := by
  have hshape : shapeOf (fieldsOf w ps) = ps := by simp [shapeOf, fieldsOf, Function.comp_def]
  have hfits : fieldsFit 0 (fieldsOf w ps) := fieldsFit_of_shape (by rw [hshape]; exact hfit) fun f hf => by
    obtain ⟨p, -, rfl⟩ := List.mem_map.mp hf
    exact field_lt_two_pow w p.1 p.2
  refine BitVec.eq_of_getLsbD_eq fun j hj => ?_
  rw [BitVec.getLsbD_and, hm ⟨j, hj⟩]
  cases hc : covers ps j with
  | false => rw [gap_read hfits (not_covered (by rw [hshape]; exact hc)), Bool.and_false]
  | true =>
    obtain ⟨p, hp, hin⟩ := List.any_eq_true.mp hc
    simp only [Bool.and_eq_true, decide_eq_true_eq] at hin
    have hmem : (p.1, p.2, field w p.1 p.2) ∈ fieldsOf w ps := List.mem_map.mpr ⟨p, hp, rfl⟩
    have hbit := testBit_of_mem hfits hmem (j := j - p.1) (by omega)
    rw [fieldsWord_getLsbD j hj, Bool.and_true, show j = p.1 + (j - p.1) by omega, hbit, testBit_field,
      decide_eq_true (by omega), Bool.true_and]

theorem flagNat_wbit (w : Word) (i : Nat) : flagNat (wbit w i) = field w i 1 := by
  refine Nat.eq_of_testBit_eq fun k => ?_
  rw [testBit_field]
  cases k with
  | zero => cases h : w.getLsbD i <;> simp [flagNat, wbit, h]
  | succ k => cases h : w.getLsbD i <;> simp [flagNat, wbit, h, Nat.testBit_succ]

theorem packWord_toNat (w : Word) : packWord [(0, w.toNat)] = w := by
  simp [packWord]

theorem flagNat_le_one (b : Bool) : flagNat b ≤ 1 := Nat.le_of_lt_succ (flagNat_lt b)

/-! ## Reads of registers -/

theorem readRegister_high {s : State} (h : s.resetn = true) (off : BitVec 6) : readRegister s off = s.registerValue off := by
  rw [readRegister, h, if_pos rfl]

theorem exec_registerWrite (off : BitVec 6) (w : Word) {s : State} (h : s.resetn = true) :
    exec (.registerWrite off w) s = .next (hostWrite off w s) := congrArg _ (outOfReset_high _ h)

/-! ## MAPDATA reads (R43) -/

theorem SlotMode.code_lt (m : SlotMode) : m.code < 4 := by cases m <;> decide

/-- The fields of an entry's word. -/
def MapEntry.fields (e : MapEntry) : List (Nat × Nat × Nat) := [(0, 3, e.chan.val), (8, 2, e.mode.code)]

theorem MapEntry.word_eq (e : MapEntry) : e.word = fieldsWord e.fields := rfl

theorem MapEntry.fields_fit (e : MapEntry) : fieldsFit 0 e.fields :=
  ⟨Nat.le_refl _, e.chan.isLt, by decide, e.mode.code_lt, by change 10 ≤ 16; decide⟩

theorem addressed_eq (m : MapUnit) :
    m.addressed = (if m.selActive then m.active else m.shadow).entries.get m.index := Bank.entry_val _ _

theorem addressed_unused {m : MapUnit} (hsel : m.selActive = true) (hin : m.active.withinFrame) (hz : m.active.unusedZero)
    (hi : m.active.slots ≤ m.index.val) : m.addressed = {} := by
  have hmode : (m.active.entries.get m.index).mode = .unused := Bank.entry_val m.active m.index ▸ hin _ hi
  have hchan := hz _ hmode
  rw [addressed_eq, hsel, if_pos rfl]
  generalize m.active.entries.get m.index = e at *
  obtain ⟨mode, chan⟩ := e
  cases hmode
  cases hchan
  rfl

theorem advanced_frame (m : MapUnit) : { m.advanced with index := m.index } = m := by
  unfold MapUnit.advanced
  split <;> rfl

/-- Settles O14. -/
theorem mapdataReadReturnsEntry : Obligations.MapdataReadReturnsEntry := by
  unfold Obligations.MapdataReadReturnsEntry
  intro s hs
  have hword : (readMapdata s).readData = fieldsWord s.map.addressed.fields := rfl
  have hcode : ∀ m : SlotMode, m.code = (match m with | .unused => 0 | .tx => 1 | .rx => 2) := fun m => by cases m <;> rfl
  refine ⟨readMapdata s, congrArg _ (outOfReset_high _ hs), ?_, ?_, ?_, advanced_index s.map, ?_, fun hsel hin hz hi => ?_⟩
  · rw [hword, field_read (MapEntry.fields_fit _) List.mem_cons_self, addressed_eq]
  · rw [hword, field_read (MapEntry.fields_fit _) (List.mem_cons_of_mem _ List.mem_cons_self), addressed_eq]
    exact hcode _
  · exact fieldsWord_and_gaps (MapEntry.fields_fit _) (ps := [(0, 3), (8, 2)]) rfl (by decide)
  · change { s with map := { s.map.advanced with index := s.map.index } } = s
    rw [advanced_frame]
  · change s.map.addressed.word = 0
    rw [addressed_unused hsel hin hz hi]
    rfl

/-! ## Flags written one to clear (R76, R178) -/

/-- The fields of CHSTICKY. -/
def Sticky.fields (k : Sticky) : List (Nat × Nat × Nat) :=
  [(0, 1, flagNat k.parity), (1, 1, flagNat k.unknownCtrl), (2, 1, flagNat k.txOverflow), (3, 1, flagNat k.strayEcho),
    (4, 1, flagNat k.starved)]

theorem Sticky.fields_fit (k : Sticky) : fieldsFit 0 k.fields :=
  fieldsFit_of_shape (by decide : shapeFits 0 [(0, 1), (1, 1), (2, 1), (3, 1), (4, 1)] = true) (by
    simp [Sticky.fields, flagNat_le_one])

theorem Sticky.word_eq (k : Sticky) : k.word = fieldsWord k.fields := rfl

/-- The bits of CHSTICKY. -/
theorem Sticky.word_bits (k : Sticky) :
    k.word.getLsbD 0 = k.parity ∧ k.word.getLsbD 1 = k.unknownCtrl ∧ k.word.getLsbD 2 = k.txOverflow ∧
      k.word.getLsbD 3 = k.strayEcho ∧ k.word.getLsbD 4 = k.starved ∧ ∀ i, 5 ≤ i → k.word.getLsbD i = false := by
  rw [k.word_eq]
  refine ⟨flag_read k.fields_fit (by simp [Sticky.fields]), flag_read k.fields_fit (by simp [Sticky.fields]),
    flag_read k.fields_fit (by simp [Sticky.fields]), flag_read k.fields_fit (by simp [Sticky.fields]),
    flag_read k.fields_fit (by simp [Sticky.fields]), fun i hi => gap_read k.fields_fit fun f hf => Or.inr ?_⟩
  simp only [Sticky.fields, List.mem_cons, List.not_mem_nil, or_false] at hf
  rcases hf with rfl | rfl | rfl | rfl | rfl <;> dsimp only <;> omega

theorem Sticky.word_cleared (k : Sticky) (w : Word) : (k.cleared w).word = k.word &&& ~~~w := by
  obtain ⟨h0, h1, h2, h3, h4, h5⟩ := k.word_bits
  obtain ⟨g0, g1, g2, g3, g4, g5⟩ := (k.cleared w).word_bits
  refine BitVec.eq_of_getLsbD_eq fun i hi => ?_
  rw [BitVec.getLsbD_and, BitVec.getLsbD_not, decide_eq_true hi, Bool.true_and]
  match i with
  | 0 => rw [g0, h0]; rfl
  | 1 => rw [g1, h1]; rfl
  | 2 => rw [g2, h2]; rfl
  | 3 => rw [g3, h3]; rfl
  | 4 => rw [g4, h4]; rfl
  | j + 5 => rw [g5 _ (by omega), h5 _ (by omega), Bool.false_and]

theorem readRegister_chsticky {s : State} (h : s.resetn = true) : readRegister s 0x17 = (s.chan s.chsel).sticky.word :=
  readRegister_high h _

/-- Settles O46. -/
theorem stickyFlagsAreWrittenOneToClear : Obligations.StickyFlagsAreWrittenOneToClear := by
  unfold Obligations.StickyFlagsAreWrittenOneToClear
  intro w s hs
  dsimp only
  have hs' : (writeChsticky w s).resetn = true := hs
  have hchan : (writeChsticky w s).chan s.chsel = { s.chan s.chsel with sticky := (s.chan s.chsel).sticky.cleared w } :=
    chan_setSticky_same ..
  refine ⟨⟨writeChsticky w s, congrArg _ (outOfReset_high _ hs), fun d hd => chan_setSticky_other _ _ hd, rfl, ?_, ?_, ?_⟩, ?_,
    ⟨writeCmdstat w s, congrArg _ (outOfReset_high _ hs), rfl⟩⟩
  · rw [hchan]
  · rw [hchan]
    rfl
  · rw [readRegister_chsticky hs', readRegister_chsticky hs]
    change ((writeChsticky w s).chan s.chsel).sticky.word = _
    rw [hchan]
    exact Sticky.word_cleared _ w
  · rw [readRegister_chsticky hs]
    exact Sticky.word_bits _

/-! ## Writes at offsets without a row of their own -/

theorem hostWrite_refdiv (w : Word) (s : State) : hostWrite 0x05 w s = writeRefdiv w s := rfl

theorem writeRefdiv_rejects {w : Word} {s : State} (h : s.tim.enable = true ∨ w.toNat < 2 ∨ 1023 < w.toNat) :
    writeRefdiv w s = reject s := if_pos (by simpa [or_assoc] using h)

theorem writeRefdiv_stores {w : Word} {s : State} (he : s.tim.enable = false) (h2 : 2 ≤ w.toNat) (h1023 : w.toNat ≤ 1023) :
    writeRefdiv w s = { s with tim := { s.tim with refdiv := w.toNat } } := if_neg (by simp [he]; omega)

theorem writeChsel_rejects {w : Word} {s : State} (h : 8 ≤ w.toNat) : writeChsel w s = reject s :=
  dif_neg (Nat.not_lt.mpr h)

theorem writeChsel_stores {w : Word} {s : State} (h : w.toNat < 8) : writeChsel w s = { s with chsel := ⟨w.toNat, h⟩ } :=
  dif_pos h

theorem mapaddrWord_written (w : Word) (s : State) : (writeMapaddr w s).mapaddrWord = w &&& 0x811F := by
  have hidx : field w 0 5 % 32 = field w 0 5 := Nat.mod_eq_of_lt (field_lt_two_pow w 0 5)
  change packWord [(0, field w 0 5 % 32), (8, flagNat (wbit w 8)), (15, flagNat (wbit w 15))] = _
  rw [hidx, flagNat_wbit, flagNat_wbit]
  exact fieldsWord_fieldsOf w [(0, 5), (8, 1), (15, 1)] (by decide) (by decide)

theorem runCommand_unnamed {code : BitVec 8} (h : WellFormed.codeNamed code = false) (s : State) :
    runCommand code s = setCmd .refused .unknown code s := by
  rw [runCommand, ofCommandCode_unnamed h]

/-- Settles O53. -/
theorem registerWritesStoreOrAreIgnored : Obligations.RegisterWritesStoreOrAreIgnored := by
  unfold Obligations.RegisterWritesStoreOrAreIgnored
  intro w s hs
  refine ⟨fun h => ?_, fun he h2 h1023 => ⟨_, exec_registerWrite _ w hs, ?_, ?_⟩, fun h => ?_,
    fun h => ⟨_, exec_registerWrite _ w hs, ?_, ?_⟩, ⟨writeMapaddr w s, exec_registerWrite _ w hs, ?_, ?_, rfl, rfl, rfl⟩,
    fun off hoff => ?_, fun code hwf => ?_⟩
  · rw [exec_registerWrite _ w hs]
    exact congrArg _ (writeRefdiv_rejects h)
  · exact writeRefdiv_stores he h2 h1023
  · rw [hostWrite_refdiv, writeRefdiv_stores he h2 h1023]
    exact (readRegister_high (by exact hs) _).trans (packWord_toNat w)
  · rw [exec_registerWrite _ w hs]
    exact congrArg _ (writeChsel_rejects h)
  · change readRegister (writeChsel w s) 0x16 = w
    rw [writeChsel_stores h]
    exact (readRegister_high (by exact hs) _).trans (packWord_toNat w)
  · change { writeChsel w s with chsel := s.chsel } = s
    rw [writeChsel_stores h]
  · exact (readRegister_high (by exact hs) _).trans (mapaddrWord_written w s)
  · exact (Nat.mod_eq_of_lt (field_lt_two_pow w 0 5)).trans (field_eq_extractLsb' w 0 5)
  · rw [exec_registerWrite _ w hs]
    have hsame : hostWrite off w s = s := by fin_cases hoff <;> rfl
    rw [hsame]
  · have hcode : WellFormed.codeNamed code = false := by simpa [Instr.wf] using hwf
    refine (congrArg _ (outOfReset_high _ hs)).trans ?_
    rw [runCommand_unnamed hcode]
    rfl

/-! ## INTn (R169) -/

theorem intnPin_low_iff (s : State) :
    s.intnPin = false ↔ s.ev.inten = true ∧ ∃ x ∈ allSources, s.isPending x = true ∧ s.isEnabled x = true := by
  simp [State.intnPin, State.intAsserted, State.named, List.find?_isSome]

/-! ## Writes to ENABLE0 to ENABLE2 (R166, R167) -/

theorem set_get_place (v : Vector Bool 59) (x y : Source) (b : Bool) :
    (v.set y.place b).get x.place = if x = y then b else v.get x.place := by
  have h : (v.set y.place b).get x.place = if y.place.val = x.place.val then b else v.get x.place :=
    Vector.getElem_set ..
  rw [h]
  have : y.place.val = x.place.val ↔ x = y := by rw [← Fin.ext_iff, place_inj, eq_comm]
  simp [this]

/-- Enables stored from the positions of a view: each shown source takes its bit, every other keeps its enable. -/
theorem enables_foldl (w : Word) (view : List (Nat × Source)) (hnd : (view.map Prod.snd).Nodup) (v : Vector Bool 59)
    (x : Source) :
    (view.foldl (fun v p => v.set p.2.place (wbit w p.1)) v).get x.place =
      match view.find? fun p => decide (p.2 = x) with
      | some p => w.getLsbD p.1
      | none => v.get x.place := by
  induction view generalizing v with
  | nil => rfl
  | cons p view ih =>
    rw [List.map_cons, List.nodup_cons] at hnd
    rw [List.foldl_cons, ih hnd.2, List.find?_cons]
    by_cases hp : p.2 = x
    · have hnone : view.find? (fun p => decide (p.2 = x)) = none := by
        rw [List.find?_eq_none]
        intro q hq hqx
        exact hnd.1 (List.mem_map.mpr ⟨q, hq, (of_decide_eq_true hqx).trans hp.symm⟩)
      rw [hnone, decide_eq_true hp]
      exact (set_get_place ..).trans (if_pos hp.symm)
    · rw [decide_eq_false hp]
      cases view.find? fun p => decide (p.2 = x) with
      | some q => rfl
      | none => exact (set_get_place ..).trans (if_neg (Ne.symm hp))

theorem viewSources_nodup (page : Bool) (n : Fin 3) : ((viewSources page n).map Prod.snd).Nodup := by
  revert page n
  decide

theorem hostWrite_enable (n : Fin 3) (w : Word) (s : State) :
    hostWrite (BitVec.ofNat 6 (0x34 + n.val)) w s = writeEnable n w s := by
  fin_cases n <;> rfl

theorem registerValue_enable (n : Fin 3) (s : State) :
    s.registerValue (BitVec.ofNat 6 (0x34 + n.val)) = s.enableWord n := by
  fin_cases n <;> rfl

theorem writeEnable_isEnabled (n : Fin 3) (w : Word) (s : State) (x : Source) :
    (writeEnable n w s).isEnabled x = match (viewSources s.ev.page n).find? fun p => decide (p.2 = x) with
      | some p => w.getLsbD p.1
      | none => s.isEnabled x := enables_foldl w _ (viewSources_nodup _ n) _ x

/-- The positions of a view, each of one bit. -/
def viewShape (page : Bool) (n : Fin 3) : List (Nat × Nat) := (viewSources page n).map fun p => (p.1, 1)

theorem viewShape_fits (page : Bool) (n : Fin 3) : shapeFits 0 (viewShape page n) = true := by
  revert page n
  decide

/-- The positions that an ENABLE word shows (section 10.7). -/
def viewMask (page : Bool) (n : Fin 3) : Word :=
  if page then (if n = 0 then 0xFFFF else 0) else if n = 0 then 0x07FF else 0xFFFF

theorem viewMask_covers (page : Bool) (n : Fin 3) (j : Fin 16) :
    (viewMask page n).getLsbD j = covers (viewShape page n) j := by
  revert page n j
  decide

theorem find?_of_mem_nodup {view : List (Nat × Source)} (hnd : (view.map Prod.snd).Nodup) {p : Nat × Source} (hp : p ∈ view) :
    view.find? (fun q => decide (q.2 = p.2)) = some p := by
  induction view with
  | nil => cases hp
  | cons q view ih =>
    rw [List.map_cons, List.nodup_cons] at hnd
    rw [List.find?_cons]
    rcases List.mem_cons.mp hp with rfl | hp
    · rw [decide_eq_true rfl]
    · have hne : q.2 ≠ p.2 := fun he => hnd.1 (List.mem_map.mpr ⟨p, hp, he.symm⟩)
      rw [decide_eq_false hne]
      exact ih hnd.2 hp

theorem enableWord_written (n : Fin 3) (w : Word) (s : State) :
    (writeEnable n w s).enableWord n = w &&& viewMask s.ev.page n := by
  rw [← fieldsWord_fieldsOf w _ (viewShape_fits s.ev.page n) (viewMask_covers s.ev.page n)]
  change packWord ((viewSources s.ev.page n).map fun p => (p.1, flagNat ((writeEnable n w s).isEnabled p.2))) =
    packWord ((fieldsOf w (viewShape s.ev.page n)).map fun f => (f.1, f.2.2))
  congr 1
  rw [fieldsOf, viewShape, List.map_map, List.map_map]
  refine List.map_congr_left fun p hp => ?_
  rw [writeEnable_isEnabled, find?_of_mem_nodup (viewSources_nodup _ n) hp]
  exact congrArg (Prod.mk p.1) (flagNat_wbit w p.1)

/-- The sources of each page and word in the positions of section 10.7. -/
theorem viewSources_eq (page : Bool) (n : Fin 3) :
    viewSources page n = if page then (if n = 0
        then ((List.finRange 8).map fun c => (0 + c.val, Source.holdExpired c)) ++
          (List.finRange 8).map fun c => (8 + c.val, Source.peerChange c) else [])
      else if n = 0 then [(0, .masterYielded), (1, .syncLost), (2, .lineDown), (3, .slip), (4, .tookOver), (5, .masterActive),
        (6, .locked), (7, .lineUp), (8, .rxReady), (9, .commitRefused), (10, .commitDone)]
      else if n = 1 then ((List.finRange 8).map fun c => (0 + c.val, Source.txShutdown c)) ++
          (List.finRange 8).map fun c => (8 + c.val, Source.txDropped c)
      else ((List.finRange 8).map fun c => (0 + c.val, Source.rxStarved c)) ++
          (List.finRange 8).map fun c => (8 + c.val, Source.txSpace c) := by
  revert page n
  decide

/-- Settles O48. -/
theorem enablesAndInterruptLine : Obligations.EnablesAndInterruptLine := by
  unfold Obligations.EnablesAndInterruptLine
  refine ⟨intnPin_low_iff, fun w s hs => exec_registerWrite _ w hs, fun n w s hs => ?_⟩
  have hexec : exec (.registerWrite (BitVec.ofNat 6 (0x34 + n.val)) w) s = .next (writeEnable n w s) := by
    rw [exec_registerWrite _ w hs, hostWrite_enable]
  refine ⟨writeEnable n w s, hexec, rfl, fun x _ => ?_, ?_⟩
  · rw [writeEnable_isEnabled]
    rw [viewSources_eq] <;> rfl
  · exact ((readRegister_high (by exact hs) _).trans (registerValue_enable n _)).trans (enableWord_written n w s)

end Sys2Proof.Machine
end

section
/-! PROOFS. Status registers and the cause word (spec 09; spec 10, section 10.7): what each position shows, and what a read of CAUSE
acknowledges. -/

namespace Sys2Proof.Machine

open Sys2Proof

/-! ## Fields of a register -/

/-- Field i of a register's fields reads at its position. -/
theorem register_bits {s : State} (hs : s.resetn = true) {off : BitVec 6} {fs : List (Nat × Nat × Nat)}
    (hreg : s.registerValue off = fieldsWord fs) (hfit : fieldsFit 0 fs) (i : Nat) {lo len v : Nat}
    (hf : fs[i]? = some (lo, len, v)) : ((readRegister s off).extractLsb' lo len).toNat = v := by
  rw [readRegister_high hs, hreg]
  exact field_read hfit (List.mem_of_getElem? hf)

/-- Flag i of a register's fields reads at its position. -/
theorem register_bit {s : State} (hs : s.resetn = true) {off : BitVec 6} {fs : List (Nat × Nat × Nat)}
    (hreg : s.registerValue off = fieldsWord fs) (hfit : fieldsFit 0 fs) (i : Nat) {lo : Nat} {b : Bool}
    (hf : fs[i]? = some (lo, 1, flagNat b)) : (readRegister s off).getLsbD lo = b := by
  rw [readRegister_high hs, hreg]
  exact flag_read hfit (List.mem_of_getElem? hf)

/-! ## Codes fit their fields -/

theorem Reason.code_lt (r : Reason) : r.code < 16 := by cases r <;> decide
theorem CmdResult.code_lt (r : CmdResult) : r.code < 4 := by cases r <;> decide
theorem TimState.code_lt (t : TimState) : t.code < 8 := by cases t <;> decide
theorem LossCause.code_lt (l : LossCause) : l.code < 8 := by cases l <;> decide
theorem CommitState.code_lt (c : CommitState) : c.code < 2 := by cases c <;> decide
theorem CommitResult.code_lt (r : CommitResult) : r.code < 4 := by cases r <;> decide
theorem RxState.code_lt (r : RxState) : r.code < 8 := by cases r <;> decide
theorem Role.code_lt (r : Role) : r.code < 4 := by cases r <;> decide
theorem DropReason.code_lt (d : DropReason) : d.code < 4 := by cases d <;> decide
theorem MsgStatus.code_lt (m : MsgStatus) : m.code < 8 := by cases m <;> decide

theorem CommitState.code_eq (c : CommitState) : c.code = flagNat (decide (c = .pending)) := by cases c <;> rfl

/-! ## The fields of the status words (section 10.7) -/

/-- CMDSTAT. -/
def cmdstatFields (s : State) : List (Nat × Nat × Nat) :=
  [(0, 2, s.cmd.result.code), (2, 1, flagNat s.cfgReject), (3, 1, flagNat s.mapBusy), (4, 4, s.cmd.reason.code),
    (8, 8, s.cmd.code.toNat)]

theorem cmdstatFields_fit (s : State) : fieldsFit 0 (cmdstatFields s) :=
  ⟨by decide, s.cmd.result.code_lt, by decide, flagNat_lt _, by decide, flagNat_lt _, by decide, s.cmd.reason.code_lt, by decide,
    s.cmd.code.isLt, by simp [fieldsFit]⟩

/-- TIMSTAT. -/
def timstatFields (s : State) : List (Nat × Nat × Nat) :=
  [(0, 3, s.tim.st.code), (4, 1, flagNat (decide (s.tim.st = .driving))), (5, 1, flagNat s.tim.lineUp), (6, 1, flagNat s.hwsense),
    (7, 1, flagNat s.tim.yielded), (8, 3, s.tim.loss.code)]

theorem timstatFields_fit (s : State) : fieldsFit 0 (timstatFields s) :=
  ⟨by decide, s.tim.st.code_lt, by decide, flagNat_lt _, by decide, flagNat_lt _, by decide, flagNat_lt _, by decide, flagNat_lt _,
    by decide, s.tim.loss.code_lt, by simp [fieldsFit]⟩

/-- MAPSTAT. -/
def mapstatFields (m : MapUnit) : List (Nat × Nat × Nat) :=
  [(0, 1, flagNat (decide (m.commit = .pending))), (1, 2, m.result.code), (4, 4, m.reason.code), (8, 5, m.detail),
    (14, 2, m.active.len.val)]

theorem mapstatFields_fit {m : MapUnit} (h : m.detail < 32) : fieldsFit 0 (mapstatFields m) :=
  ⟨by decide, flagNat_lt _, by decide, m.result.code_lt, by decide, m.reason.code_lt, by decide, h, by decide, m.active.len.isLt,
    by simp [fieldsFit]⟩

theorem mapstatWord_eq (s : State) : s.mapstatWord = fieldsWord (mapstatFields s.map) := by
  rw [State.mapstatWord, CommitState.code_eq]
  rfl

/-- CHSTAT0. -/
def chstat0Fields (x : Channel) : List (Nat × Nat × Nat) :=
  [(0, 3, x.rx.st.code), (3, 1, flagNat x.rx.damaged), (4, 1, flagNat x.fl.asserted), (5, 1, flagNat x.fl.quota),
    (6, 1, flagNat x.fl.pool), (7, 1, flagNat x.fl.host), (8, 1, flagNat x.fl.held), (9, 1, flagNat x.peer.present)]

theorem chstat0Fields_fit (x : Channel) : fieldsFit 0 (chstat0Fields x) :=
  ⟨by decide, x.rx.st.code_lt, by decide, flagNat_lt _, by decide, flagNat_lt _, by decide, flagNat_lt _, by decide, flagNat_lt _,
    by decide, flagNat_lt _, by decide, flagNat_lt _, by decide, flagNat_lt _, by simp [fieldsFit]⟩

/-- TIMCFG. -/
def timcfgFields (t : Timing) : List (Nat × Nat × Nat) :=
  [(0, 2, t.role.code), (4, 3, t.rank.val), (8, 4, t.limit), (15, 1, flagNat t.enable)]

theorem timcfgFields_fit {t : Timing} (h : t.limit < 16) : fieldsFit 0 (timcfgFields t) :=
  ⟨by decide, t.role.code_lt, by decide, t.rank.isLt, by decide, h, by decide, flagNat_lt _, by simp [fieldsFit]⟩

/-- TXSTAT(c) on page 0. -/
def txstatFields (x : Channel) : List (Nat × Nat × Nat) :=
  [(0, 10, x.tx.freeBytes), (10, 4, x.tx.records.length), (14, 1, flagNat x.cfg.tx), (15, 1, flagNat x.tx.abortOwed)]

theorem txstatFields_fit {x : Channel} (h : x.tx.records.length ≤ 8) : fieldsFit 0 (txstatFields x) :=
  ⟨by decide, by rw [TxUnit.freeBytes]; omega, by decide, by omega, by decide, flagNat_lt _, by decide, flagNat_lt _,
    by simp [fieldsFit]⟩

/-- TXSTAT(c) on page 1. -/
def txstatHeadFields (x : Channel) : List (Nat × Nat × Nat) :=
  [(0, 2, x.tx.headCode), (4, 1, flagNat x.fl.held), (8, 2, x.tx.lastDrop.code)]

theorem headCode_eq (u : TxUnit) :
    u.headCode = match u.records.head? with
      | none => 0
      | some r => if r.closed then (if u.sending then 3 else 2) else 1 := by
  unfold TxUnit.headCode
  cases u.records <;> rfl

theorem headCode_lt (u : TxUnit) : u.headCode < 4 := by
  unfold TxUnit.headCode
  split
  · decide
  · split_ifs <;> decide

theorem txstatHeadFields_fit (x : Channel) : fieldsFit 0 (txstatHeadFields x) :=
  ⟨by decide, headCode_lt _, by decide, flagNat_lt _, by decide, x.tx.lastDrop.code_lt, by simp [fieldsFit]⟩

/-- CHSTAT1 on page 0. -/
def chstat1Fields (x : Channel) : List (Nat × Nat × Nat) := [(0, 8, x.held), (8, 4, x.tx.coll), (12, 4, x.tx.r)]

theorem chstat1Fields_fit {x : Channel} (hh : x.held ≤ 128) (hc : x.tx.coll < 16) (hr : x.tx.r < 16) :
    fieldsFit 0 (chstat1Fields x) :=
  ⟨by decide, by omega, by decide, hc, by decide, hr, by simp [fieldsFit]⟩

/-- RINGSTAT. -/
def ringstatFields (r : Ring) : List (Nat × Nat × Nat) := [(0, 6, r.entries.length), (8, 6, r.reserved)]

theorem ringstatFields_fit {r : Ring} (he : r.entries.length ≤ 32) (hr : r.reserved ≤ 32) : fieldsFit 0 (ringstatFields r) :=
  ⟨by decide, by omega, by decide, by omega, by simp [fieldsFit]⟩

/-- One field at position 0. -/
theorem oneField_fit {len v : Nat} (hv : v < 2 ^ len) (hlen : len ≤ 16) : fieldsFit 0 [(0, len, v)] :=
  ⟨Nat.le_refl 0, hv, by simpa [fieldsFit] using hlen⟩

/-- DESC0. -/
def descFields (d : Descriptor) : List (Nat × Nat × Nat) :=
  [(0, 3, d.chan.val), (4, 3, d.status.code), (8, 1, flagNat d.damaged), (15, 1, flagNat true)]

theorem descFields_fit (d : Descriptor) : fieldsFit 0 (descFields d) :=
  ⟨by decide, d.chan.isLt, by decide, d.status.code_lt, by decide, flagNat_lt _, by decide, flagNat_lt _, by simp [fieldsFit]⟩

/-- The number of a descriptor's first block, 0 where it has none. -/
def firstNumber (first : Option BlockNo) : Nat := match first with | some b => b.val | none => 0

/-- DESC2. -/
def descSeqFields (d : Descriptor) : List (Nat × Nat × Nat) := [(0, 8, d.seq.toNat), (8, 7, firstNumber d.first)]

theorem descSeqFields_fit (d : Descriptor) : fieldsFit 0 (descSeqFields d) := by
  refine ⟨by decide, d.seq.isLt, by decide, ?_, by simp [fieldsFit]⟩
  cases d.first with
  | none => decide
  | some b => exact b.isLt

theorem registerValue_txstat (c : Chan) (s : State) :
    s.registerValue (BitVec.ofNat 6 (0x28 + c.val)) = (s.chan c).txstatWord s.ev.page := by
  fin_cases c <;> rfl

theorem descWord_head {s : State} {d : Descriptor} {rest : List Descriptor} (h : s.ring.entries = d :: rest) (n : Nat) :
    s.descWord n = d.word n := by
  rw [State.descWord, h]

theorem descWord_empty {s : State} (h : s.ring.entries = []) (n : Nat) : s.descWord n = 0 := by
  rw [State.descWord, h]

/-! ## The PEND words -/

theorem registerValue_pend (n : Fin 3) (s : State) : s.registerValue (BitVec.ofNat 6 (0x31 + n.val)) = s.pendWord n := by
  fin_cases n <;> rfl

theorem viewSources_rises (page : Bool) (n : Fin 3) : risesFrom 0 ((viewSources page n).map Prod.fst) = true := by
  revert page n
  decide

theorem pend_bit {s : State} (hs : s.resetn = true) (n : Fin 3) {i : Nat} {x : Source} (h : (i, x) ∈ viewSources s.ev.page n) :
    (readRegister s (BitVec.ofNat 6 (0x31 + n.val))).getLsbD i = s.isPending x := by
  rw [readRegister_high hs, registerValue_pend]
  exact flags_read s.isPending (viewSources_rises s.ev.page n) h

theorem pend_gap {s : State} (hs : s.resetn = true) (n : Fin 3) {i : Nat} (h : i ∉ (viewSources s.ev.page n).map Prod.fst) :
    (readRegister s (BitVec.ofNat 6 (0x31 + n.val))).getLsbD i = false := by
  rw [readRegister_high hs, registerValue_pend]
  exact flags_gap s.isPending (viewSources_rises s.ev.page n) h

theorem extractLsb'_toNat_eq_zero {w : Word} {lo len : Nat} (h : ∀ j < len, w.getLsbD (lo + j) = false) :
    (w.extractLsb' lo len).toNat = 0 := by
  have hz : w.extractLsb' lo len = 0#len := by
    refine BitVec.eq_of_getLsbD_eq fun j hj => ?_
    rw [BitVec.getLsbD_extractLsb', h j hj]
    simp
  rw [hz]
  rfl

theorem view_channel (c : Chan) :
    (c.val, Source.txShutdown c) ∈ viewSources false 1 ∧ (8 + c.val, Source.txDropped c) ∈ viewSources false 1 ∧
    (c.val, Source.rxStarved c) ∈ viewSources false 2 ∧ (8 + c.val, Source.txSpace c) ∈ viewSources false 2 ∧
    (c.val, Source.holdExpired c) ∈ viewSources true 0 ∧ (8 + c.val, Source.peerChange c) ∈ viewSources true 0 := by
  revert c
  decide

/-- PEND0 to PEND2 on page 0. -/
theorem pend_page0 (c : Chan) {s : State} (hs : s.resetn = true) (hp : s.ev.page = false) :
    let bit := fun (off : BitVec 6) (i : Nat) => (readRegister s off).getLsbD i
    bit 0x31 0 = s.isPending .masterYielded ∧ bit 0x31 1 = s.isPending .syncLost ∧
      bit 0x31 2 = s.isPending .lineDown ∧ bit 0x31 3 = s.isPending .slip ∧ bit 0x31 4 = s.isPending .tookOver ∧
      bit 0x31 5 = s.isPending .masterActive ∧ bit 0x31 6 = s.isPending .locked ∧ bit 0x31 7 = s.isPending .lineUp ∧
      bit 0x31 8 = s.isPending .rxReady ∧ bit 0x31 9 = s.isPending .commitRefused ∧ bit 0x31 10 = s.isPending .commitDone ∧
      ((readRegister s 0x31).extractLsb' 11 5).toNat = 0 ∧
      bit 0x32 c.val = s.isPending (.txShutdown c) ∧ bit 0x32 (8 + c.val) = s.isPending (.txDropped c) ∧
      bit 0x33 c.val = s.isPending (.rxStarved c) ∧ bit 0x33 (8 + c.val) = s.isPending (.txSpace c) := by
  obtain ⟨hsd, hdr, hst, hsp, -, -⟩ := view_channel c
  have hbit : ∀ (n : Fin 3) {i : Nat} {x : Source}, (i, x) ∈ viewSources false n →
      (readRegister s (BitVec.ofNat 6 (0x31 + n.val))).getLsbD i = s.isPending x := fun n _ _ h => pend_bit hs n (hp ▸ h)
  refine ⟨hbit 0 (by decide), hbit 0 (by decide), hbit 0 (by decide), hbit 0 (by decide), hbit 0 (by decide), hbit 0 (by decide),
    hbit 0 (by decide), hbit 0 (by decide), hbit 0 (by decide), hbit 0 (by decide), hbit 0 (by decide),
    extractLsb'_toNat_eq_zero fun j hj => pend_gap hs 0 ?_, hbit 1 hsd, hbit 1 hdr, hbit 2 hst, hbit 2 hsp⟩
  rw [hp]
  revert j
  decide

/-- PEND0 to PEND2 on page 1. -/
theorem pend_page1 (c : Chan) {s : State} (hs : s.resetn = true) (hp : s.ev.page = true) :
    (readRegister s 0x31).getLsbD c.val = s.isPending (.holdExpired c) ∧
      (readRegister s 0x31).getLsbD (8 + c.val) = s.isPending (.peerChange c) ∧
      readRegister s 0x32 = 0 ∧ readRegister s 0x33 = 0 := by
  obtain ⟨-, -, -, -, hhe, hpc⟩ := view_channel c
  refine ⟨pend_bit hs 0 (hp ▸ hhe), pend_bit hs 0 (hp ▸ hpc), ?_, ?_⟩
  · rw [readRegister_high hs]
    change packWord ((viewSources s.ev.page 1).map _) = 0
    rw [hp]
    rfl
  · rw [readRegister_high hs]
    change packWord ((viewSources s.ev.page 2).map _) = 0
    rw [hp]
    rfl

/-- TXSTAT(c) on each page. -/
theorem txstat_fields (c : Chan) (s : State) :
    s.registerValue (BitVec.ofNat 6 (0x28 + c.val)) =
      if s.ev.page then fieldsWord (txstatHeadFields (s.chan c)) else fieldsWord (txstatFields (s.chan c)) :=
  registerValue_txstat c s

theorem txstat_page0 {c : Chan} {s : State} (h : s.ev.page = false) :
    s.registerValue (BitVec.ofNat 6 (0x28 + c.val)) = fieldsWord (txstatFields (s.chan c)) := by
  rw [txstat_fields, h]
  rfl

theorem txstat_page1 {c : Chan} {s : State} (h : s.ev.page = true) :
    s.registerValue (BitVec.ofNat 6 (0x28 + c.val)) = fieldsWord (txstatHeadFields (s.chan c)) := by
  rw [txstat_fields, h]
  rfl

theorem chstat1_fields (s : State) :
    s.registerValue 0x38 =
      if s.ev.page then fieldsWord [(0, 8, (s.chan s.chsel).rx.seq.toNat)] else fieldsWord (chstat1Fields (s.chan s.chsel)) := rfl

theorem chstat1_page0 {s : State} (h : s.ev.page = false) :
    s.registerValue 0x38 = fieldsWord (chstat1Fields (s.chan s.chsel)) := by
  rw [chstat1_fields, h]
  rfl

theorem chstat1_page1 {s : State} (h : s.ev.page = true) :
    s.registerValue 0x38 = fieldsWord [(0, 8, (s.chan s.chsel).rx.seq.toNat)] := by
  rw [chstat1_fields, h]
  rfl

theorem readRegister_desc_empty {s : State} (hs : s.resetn = true) (h : s.ring.entries = []) :
    ∀ off ∈ ([0x0C, 0x0D, 0x0E, 0x0F] : List (BitVec 6)), readRegister s off = 0 := by
  intro off hoff
  rw [readRegister_high hs]
  simp only [List.mem_cons, List.not_mem_nil, or_false] at hoff
  rcases hoff with rfl | rfl | rfl | rfl
  · exact descWord_empty h 0
  · exact descWord_empty h 1
  · exact descWord_empty h 2
  · exact descWord_empty h 3

/-- Settles O47, word by word. -/
theorem statusWordsShowTheState : Obligations.StatusWordsShowTheState := by
  unfold Obligations.StatusWordsShowTheState
  intro c s hs
  have hcmd := cmdstatFields_fit s
  have htim := timstatFields_fit s
  have hst0 := chstat0Fields_fit (s.chan s.chsel)
  refine ⟨⟨register_bits hs rfl hcmd 0 rfl, register_bit hs rfl hcmd 1 rfl, register_bit hs rfl hcmd 2 rfl,
      register_bits hs rfl hcmd 3 rfl, register_bits hs rfl hcmd 4 rfl⟩,
    ⟨register_bits hs rfl htim 0 rfl, register_bit hs rfl htim 1 rfl, register_bit hs rfl htim 2 rfl, register_bit hs rfl htim 3 rfl,
      register_bit hs rfl htim 4 rfl, register_bits hs rfl htim 5 rfl⟩,
    fun hd => ?_,
    ⟨register_bits hs rfl hst0 0 rfl, register_bit hs rfl hst0 1 rfl, register_bit hs rfl hst0 2 rfl, register_bit hs rfl hst0 3 rfl,
      register_bit hs rfl hst0 4 rfl, register_bit hs rfl hst0 5 rfl, register_bit hs rfl hst0 6 rfl,
      register_bit hs rfl hst0 7 rfl⟩,
    fun hl => ?_, readRegister_high hs _, pend_page0 c hs, pend_page1 c hs, fun hp hr => ?_, fun hp => ?_,
    fun hp hh hc hr => ?_, fun hp => register_bits hs (chstat1_page1 hp) (oneField_fit (BitVec.isLt _) (by decide)) 0 rfl,
    fun hf => register_bits hs rfl (oneField_fit (by omega) (by decide)) 0 rfl, fun he hr => ?_, readRegister_desc_empty hs,
    fun d rest hd hlen => ?_⟩
  · have hfit := mapstatFields_fit hd
    have hreg : s.registerValue 0x15 = _ := mapstatWord_eq s
    exact ⟨register_bit hs hreg hfit 0 rfl, register_bits hs hreg hfit 1 rfl, register_bits hs hreg hfit 2 rfl,
      register_bits hs hreg hfit 3 rfl, register_bits hs hreg hfit 4 rfl⟩
  · have hfit := timcfgFields_fit hl
    exact ⟨register_bits hs rfl hfit 0 rfl, register_bits hs rfl hfit 1 rfl, register_bits hs rfl hfit 2 rfl,
      register_bit hs rfl hfit 3 rfl⟩
  · have hfit := txstatFields_fit hr
    have hreg := txstat_page0 (c := c) hp
    exact ⟨register_bits hs hreg hfit 0 rfl, register_bits hs hreg hfit 1 rfl, register_bit hs hreg hfit 2 rfl,
      register_bit hs hreg hfit 3 rfl⟩
  · have hfit := txstatHeadFields_fit (s.chan c)
    have hreg := txstat_page1 (c := c) hp
    exact ⟨(register_bits hs hreg hfit 0 rfl).trans (headCode_eq _), register_bit hs hreg hfit 1 rfl,
      register_bits hs hreg hfit 2 rfl⟩
  · have hfit := chstat1Fields_fit hh hc hr
    have hreg := chstat1_page0 hp
    exact ⟨register_bits hs hreg hfit 0 rfl, register_bits hs hreg hfit 1 rfl, register_bits hs hreg hfit 2 rfl⟩
  · have hfit := ringstatFields_fit he hr
    exact ⟨register_bits hs rfl hfit 0 rfl, register_bits hs rfl hfit 1 rfl⟩
  · have hdesc := descFields_fit d
    have hseq := descSeqFields_fit d
    have h0 : s.registerValue 0x0C = fieldsWord (descFields d) := descWord_head hd 0
    have h1 : s.registerValue 0x0D = fieldsWord [(0, 12, d.length)] := descWord_head hd 1
    have h2 : s.registerValue 0x0E = fieldsWord (descSeqFields d) := descWord_head hd 2
    exact ⟨register_bits hs h0 hdesc 0 rfl, register_bits hs h0 hdesc 1 rfl, register_bit hs h0 hdesc 2 rfl,
      register_bit hs h0 hdesc 3 rfl, register_bits hs h1 (oneField_fit (by omega) (by decide)) 0 rfl,
      register_bits hs h2 hseq 0 rfl, register_bits hs h2 hseq 1 rfl, (readRegister_high hs _).trans (descWord_head hd 3)⟩

/-! ## The cause word (R162, R163, R165) -/

theorem allSources_length : allSources.length = 59 := rfl

/-- The source at a place of the presentation order that is live, none before it being so, is the one named. -/
theorem named_of_first {s : State} {i : Nat} {x : Source} (hi : allSources[i]? = some x)
    (hlive : s.isPending x = true ∧ s.isEnabled x = true)
    (hfirst : ∀ j < i, ∀ y, allSources[j]? = some y → ¬ (s.isPending y = true ∧ s.isEnabled y = true)) : s.named = some x := by
  obtain ⟨hlt, hx⟩ := List.getElem?_eq_some_iff.mp hi
  rw [State.named, List.find?_eq_some_iff_getElem]
  refine ⟨by rw [hlive.1, hlive.2]; rfl, i, hlt, hx, fun j hj => ?_⟩
  have := hfirst j hj _ (List.getElem?_eq_getElem (hj.trans hlt))
  simp only [Bool.not_eq_true', Bool.and_eq_false_iff]
  by_contra hboth
  exact this (by simpa using hboth)

theorem named_none {s : State} (h : ∀ x ∈ allSources, ¬ (s.isPending x = true ∧ s.isEnabled x = true)) : s.named = none := by
  rw [State.named, List.find?_eq_none]
  exact fun x hx => by simpa using h x hx

/-- The fields of the cause word. -/
def causeFields (s : State) (x : Source) : List (Nat × Nat × Nat) :=
  [(0, 3, x.level), (4, 3, x.code), (8, 3, x.channel), (12, 4, s.detailOf x)]

theorem Source.level_lt (x : Source) : x.level < 8 := by cases x <;> simp [Source.level]
theorem Source.code_lt (x : Source) : x.code < 8 := by cases x <;> simp [Source.code]
theorem Source.channel_lt (x : Source) : x.channel < 8 := by cases x <;> simp [Source.channel]

theorem detailOf_lt (s : State) (x : Source) : s.detailOf x < 16 := by
  unfold State.detailOf
  split
  · exact (DropReason.code_lt _).trans (by decide)
  · exact Reason.code_lt _
  · decide

theorem causeFields_fit (s : State) (x : Source) : fieldsFit 0 (causeFields s x) :=
  ⟨by decide, x.level_lt, by decide, x.code_lt, by decide, x.channel_lt, by decide, detailOf_lt s x, by simp [fieldsFit]⟩

theorem causeWord_named {s : State} {x : Source} (h : s.named = some x) : s.causeWord = fieldsWord (causeFields s x) := by
  rw [State.causeWord, h]
  rfl

theorem readCause_named {s : State} {x : Source} (h : s.named = some x) :
    readCause s = (acknowledge x s).driveData (fieldsWord (causeFields s x)) := by
  rw [readCause, h, ← causeWord_named h]

theorem readCause_none {s : State} (h : s.named = none) : readCause s = s.driveData 0 := by
  rw [readCause, State.causeWord, h]

/-! ## The acknowledgement (R163) -/

theorem acknowledge_conditional {x : Source} (h : x.conditional = true) (s : State) : acknowledge x s = s := if_pos h

theorem acknowledge_latched {x : Source} (h : x.conditional = false) (s : State) :
    (acknowledge x s).ev.latched = s.ev.latched.set x.place false := by
  rw [acknowledge, if_neg (by simp [h])]
  cases x <;> rfl

/-- Only the event unit changes, and of it neither an enable, nor INTEN, nor the view page. -/
theorem acknowledge_frame (x : Source) (s : State) :
    { acknowledge x s with ev := s.ev } = s ∧
    { (acknowledge x s).ev with latched := s.ev.latched, dropDetail := s.ev.dropDetail, refusedDetail := s.ev.refusedDetail }
      = s.ev := by
  unfold acknowledge
  split
  · exact ⟨rfl, rfl⟩
  · cases x <;> exact ⟨rfl, rfl⟩

theorem acknowledge_withEv (x : Source) (s : State) : acknowledge x s = s.withEv (acknowledge x s).ev := by
  unfold acknowledge
  split
  · rfl
  · cases x <;> rfl

theorem acknowledge_isPending_other {x y : Source} (h : y ≠ x) (s : State) : (acknowledge x s).isPending y = s.isPending y := by
  cases hc : x.conditional with
  | true => rw [acknowledge_conditional hc]
  | false =>
    obtain ⟨hframe, -⟩ := acknowledge_frame x s
    have hring : (acknowledge x s).ring = s.ring := by
      have := congrArg State.ring hframe
      exact this
    have hchan : ∀ c, (acknowledge x s).chan c = s.chan c := by
      have := congrArg State.chans hframe
      exact chan_congr this
    cases hy : y.conditional with
    | false =>
      rw [isPending_eq_flag hy, isPending_eq_flag hy, State.flag, acknowledge_latched hc, set_get_place, if_neg h]
      rfl
    | true =>
      cases y with
      | rxReady => exact congrArg rxReadyHolds hring
      | txSpace c => exact congrArg txSpaceHolds (hchan c)
      | _ => cases hy

theorem acknowledge_isPending_self {x : Source} (s : State) (h : s.isPending x = true) :
    (acknowledge x s).isPending x = x.conditional := by
  cases hc : x.conditional with
  | true => rw [acknowledge_conditional hc, h]
  | false => rw [isPending_eq_flag hc, State.flag, acknowledge_latched hc, set_get_place, if_pos rfl]

theorem acknowledge_dropDetail {x : Source} {c : Chan} (h : x ≠ .txDropped c) (s : State) :
    (acknowledge x s).ev.dropDetail.get c = s.ev.dropDetail.get c := by
  unfold acknowledge
  split
  · rfl
  · cases x with
    | txDropped d =>
      have hne : d.val ≠ c.val := fun he => h (congrArg _ (Fin.ext he))
      exact Vector.getElem_set_ne d.isLt c.isLt hne
    | _ => rfl

theorem acknowledge_refusedDetail {x : Source} (h : x ≠ .commitRefused) (s : State) :
    (acknowledge x s).ev.refusedDetail = s.ev.refusedDetail := by
  unfold acknowledge
  split
  · rfl
  · cases x with
    | commitRefused => exact absurd rfl h
    | _ => rfl

/-! ## The conditional sources (R96, R138) -/

theorem rxReady_iff (s : State) :
    s.isPending .rxReady = true ↔ s.ring.threshold ≤ s.ring.entries.length ∨
      (1 ≤ s.ring.entries.length ∧ s.ring.timeout ≠ 0 ∧ s.ring.timeout ≤ s.ring.timer) := by
  change rxReadyHolds s.ring = true ↔ _
  simp [rxReadyHolds, and_assoc]

theorem txSpace_iff (s : State) (c : Chan) :
    s.isPending (.txSpace c) = true ↔ (s.chan c).tx.records.length < 8 ∧
      (s.chan c).cfg.spaceLevel ≤ 512 - ((s.chan c).tx.records.map fun r => r.bytes.length).sum := by
  change txSpaceHolds (s.chan c) = true ↔ _
  rw [txSpaceHolds, Bool.and_eq_true, decide_eq_true_eq, decide_eq_true_eq, and_comm]
  rfl

theorem exec_causeRead {s : State} (h : s.resetn = true) : exec .causeRead s = .next (readCause s) :=
  congrArg _ (outOfReset_high _ h)

/-- Settles O45. -/
theorem causeReadAcknowledgesTheFirst : Obligations.CauseReadAcknowledgesTheFirst := by
  unfold Obligations.CauseReadAcknowledgesTheFirst
  intro s hs order levelCodeChannel detail conditional live
  have horder : allSources = order := rfl
  have hcond : ∀ x : Source, x.conditional = conditional x := fun x => by cases x <;> rfl
  refine ⟨horder, rfl, rxReady_iff s, txSpace_iff s, fun hnone => ?_, fun i => ?_⟩
  · rw [exec_causeRead hs, readCause_none (named_none (horder ▸ hnone))]
    rfl
  · intro x hlive hfirst
    have hget : ∀ k : Fin 59, allSources[k.val]? = some (order.getD k.val .locked) := fun k => by
      rw [List.getD_eq_getElem?_getD, ← horder, List.getElem?_eq_getElem (by rw [allSources_length]; exact k.isLt), Option.getD_some]
    have hnamed : s.named = some x := named_of_first (hget i) hlive fun j hj y hy => by
      have := hfirst ⟨j, hj.trans i.isLt⟩ hj
      rw [Option.some.inj (hy.symm.trans (hget ⟨j, hj.trans i.isLt⟩))]
      exact this
    have hfit := causeFields_fit s x
    have hlcc : (x.level, x.code, x.channel) = levelCodeChannel x := by cases x <;> rfl
    have hdetail : s.detailOf x = detail x := by cases x <;> rfl
    obtain ⟨-, hevframe⟩ := acknowledge_frame x s
    obtain ⟨e, hev⟩ : ∃ e, acknowledge x s = s.withEv e := ⟨_, acknowledge_withEv x s⟩
    refine ⟨readCause s, exec_causeRead hs, ?_⟩
    rw [readCause_named hnamed]
    refine ⟨?_, ?_, ?_, ?_, ?_, ?_, fun y _ hy => acknowledge_isPending_other hy s, fun hc => ?_, hevframe,
      fun c hc => acknowledge_dropDetail hc s, fun hc => acknowledge_refusedDetail hc s, ?_⟩
    · exact (field_read hfit (List.mem_of_getElem? (i := 0) rfl)).trans (congrArg Prod.fst hlcc)
    · exact (field_read hfit (List.mem_of_getElem? (i := 1) rfl)).trans (congrArg (fun p => p.2.1) hlcc)
    · exact (field_read hfit (List.mem_of_getElem? (i := 2) rfl)).trans (congrArg (fun p => p.2.2) hlcc)
    · exact (field_read hfit (List.mem_of_getElem? (i := 3) rfl)).trans hdetail
    · exact fieldsWord_and_gaps hfit (ps := [(0, 3), (4, 3), (8, 3), (12, 4)]) rfl (by decide)
    · exact (acknowledge_isPending_self s hlive.1).trans (hcond x)
    · rw [acknowledge_conditional ((hcond x).trans hc)]
      rfl
    · rw [hev]
      rfl

end Sys2Proof.Machine
end

section
/-! PROOFS. How the flow units follow (spec 08, R142, R143, R145, R146): blocks freed let the local pause go only, blocks granted
assert it only, so that one command makes one transition at most. -/

namespace Sys2Proof.Machine

open Sys2Proof

/-! ## One direction -/

/-- An evaluation of the local pause would move it to `up` or not at all. -/
def Channel.leans (up : Bool) (x : Channel) : Prop := pauseWanted x ≠ x.fl.asserted → pauseWanted x = up

/-- The flow unit of y is that of x but for its causes, the remote pause, and a transition of the local pause to `up` (R146). -/
structure FlowMoves (up : Bool) (x y : Channel) : Prop where
  flight : y.fl.flight = x.fl.flight
  stays : y.fl.asserted = x.fl.asserted →
    y.fl.pauseOwed = x.fl.pauseOwed ∧ y.fl.resumeOwed = x.fl.resumeOwed ∧ y.fl.refresh = x.fl.refresh
  turns : y.fl.asserted ≠ x.fl.asserted →
    y.fl.asserted = up ∧ y.fl.pauseOwed = up ∧ y.fl.resumeOwed = !up ∧ y.fl.refresh = 0

theorem FlowMoves.of_same {up : Bool} {x y : Channel} (hf : y.fl.flight = x.fl.flight) (ha : y.fl.asserted = x.fl.asserted)
    (hp : y.fl.pauseOwed = x.fl.pauseOwed) (hr : y.fl.resumeOwed = x.fl.resumeOwed) (hc : y.fl.refresh = x.fl.refresh) :
    FlowMoves up x y where
  flight := hf
  stays _ := ⟨hp, hr, hc⟩
  turns h := absurd ha h

theorem FlowMoves.of_fl {up : Bool} {x y : Channel} (h : y.fl = x.fl) : FlowMoves up x y := by
  apply FlowMoves.of_same <;> rw [h]

/-- Two transitions in one direction are one at most. -/
theorem FlowMoves.trans {up : Bool} {x y z : Channel} (h : FlowMoves up x y) (h' : FlowMoves up y z) : FlowMoves up x z where
  flight := h'.flight.trans h.flight
  stays hz := by
    by_cases hy : y.fl.asserted = x.fl.asserted
    · obtain ⟨hp, hr, hc⟩ := h.stays hy
      obtain ⟨hp', hr', hc'⟩ := h'.stays (hz.trans hy.symm)
      exact ⟨hp'.trans hp, hr'.trans hr, hc'.trans hc⟩
    · have hne : z.fl.asserted ≠ y.fl.asserted := fun he => hy (he.symm.trans hz)
      exact absurd ((h'.turns hne).1.trans (h.turns hy).1.symm) hne
  turns hz := by
    by_cases hy : z.fl.asserted = y.fl.asserted
    · obtain ⟨hp, hr, hc⟩ := h'.stays hy
      have hne : y.fl.asserted ≠ x.fl.asserted := fun he => hz (hy.trans he)
      obtain ⟨ha, hp', hr', hc'⟩ := h.turns hne
      exact ⟨hy.trans ha, hp.trans hp', hr.trans hr', hc.trans hc'⟩
    · exact h'.turns hy

theorem leans_of_kept {up : Bool} {x : Channel} (h : x.pauseKept) : x.leans up := fun hne => absurd h.symm hne

theorem settled_flowMoves {up : Bool} {x : Channel} (h : x.leans up) : FlowMoves up x x.settled where
  flight := settled_flight x
  stays ha := by
    rw [settled_asserted] at ha
    rw [settled_fl, if_pos ha]
    exact ⟨rfl, rfl, rfl⟩
  turns ha := by
    rw [settled_asserted] at ha
    rw [settled_fl, if_neg ha, h ha]
    exact ⟨rfl, rfl, rfl, rfl⟩

/-! ## Causes that move in that direction -/

/-- A cause that stays or becomes `up` keeps the direction. -/
theorem wanted_leans {up e q q' r a : Bool} (h : (e && (q || r)) ≠ a → (e && (q || r)) = up) (hq : q' ≠ q → q' = up) :
    (e && (q' || r)) ≠ a → (e && (q' || r)) = up := by
  revert up e q q' r a
  decide

theorem leans_quota {up q : Bool} {x : Channel} (h : x.leans up) (hq : q ≠ x.fl.quota → q = up) :
    Channel.leans up { x with fl := { x.fl with quota := q } } := by
  simp only [Channel.leans, pauseWanted, Bool.or_assoc] at h ⊢
  exact wanted_leans h hq

theorem leans_pool {up p : Bool} {x : Channel} (h : x.leans up) (hp : p ≠ x.fl.pool → p = up) :
    Channel.leans up { x with fl := { x.fl with pool := p } } := by
  simp only [Channel.leans, pauseWanted, Bool.or_comm x.fl.quota x.fl.pool, Bool.or_comm x.fl.quota p, Bool.or_assoc] at h ⊢
  exact wanted_leans h hp

theorem leans_host {up p : Bool} {x : Channel} (h : x.leans up) (hp : p ≠ x.fl.host → p = up) :
    Channel.leans up { x with fl := { x.fl with host := p } } := by
  simp only [Channel.leans, pauseWanted, Bool.or_comm _ x.fl.host, Bool.or_comm _ p] at h ⊢
  exact wanted_leans h hp

theorem leans_congr {up : Bool} {x y : Channel} (hc : y.cfg = x.cfg) (hf : y.fl = x.fl) (h : x.leans up) : y.leans up := by
  rw [Channel.leans, pauseWanted, hc, hf]
  exact h

theorem settled_leans (up : Bool) (x : Channel) : x.settled.leans up := leans_of_kept (settled_pauseKept x)

theorem quotaSettled_flowMoves {up : Bool} {x : Channel} (h : x.leans up) (hq : quotaCause x ≠ x.fl.quota → quotaCause x = up) :
    FlowMoves up x x.quotaSettled :=
  (FlowMoves.of_same (x := x) (y := { x with fl := { x.fl with quota := quotaCause x } }) rfl rfl rfl rfl rfl).trans
    (settled_flowMoves (leans_quota h hq))

theorem poolSettled_flowMoves {up low : Bool} {x : Channel} (h : x.leans up) (hp : low ≠ x.fl.pool → low = up) :
    FlowMoves up x (x.poolSettled low) :=
  (FlowMoves.of_same (x := x) (y := { x with fl := { x.fl with pool := low } }) rfl rfl rfl rfl rfl).trans
    (settled_flowMoves (leans_pool h hp))

/-! ## From one state to another -/

/-- From s to t every flow unit has moved in one direction, QUOTA causes between their levels stay, and so do the host's cause and
the remote pause but of the channels of `but`. -/
structure FlowsMove (up : Bool) (but : List Chan) (s t : State) : Prop where
  moves : ∀ c, FlowMoves up (s.chan c) (t.chan c)
  quota : ∀ c, (t.chan c).cfg.lw < (t.chan c).held → (t.chan c).held < (t.chan c).cfg.hw →
    (t.chan c).fl.quota = (s.chan c).fl.quota
  rest : ∀ c, c ∉ but → (t.chan c).fl.host = (s.chan c).fl.host ∧ (t.chan c).fl.held = (s.chan c).fl.held ∧
    (t.chan c).fl.holdCnt = (s.chan c).fl.holdCnt

theorem FlowsMove.of_fl {up : Bool} {but : List Chan} {s t : State} (h : ∀ c, (t.chan c).fl = (s.chan c).fl) :
    FlowsMove up but s t where
  moves c := .of_fl (h c)
  quota c _ _ := by rw [h]
  rest c _ := by rw [h]; exact ⟨rfl, rfl, rfl⟩

/-- Flow units, levels and held counts are all that is read of the two states. -/
theorem FlowsMove.congr {up : Bool} {but : List Chan} {s t s' t' : State} (h : FlowsMove up but s t)
    (hs : ∀ c, (s'.chan c).fl = (s.chan c).fl) (htf : ∀ c, (t'.chan c).fl = (t.chan c).fl)
    (htc : ∀ c, (t'.chan c).cfg = (t.chan c).cfg) (hth : ∀ c, (t'.chan c).held = (t.chan c).held) :
    FlowsMove up but s' t' where
  moves c := (FlowMoves.of_fl (hs c).symm).trans ((h.moves c).trans (.of_fl (htf c)))
  quota c := by rw [htf, htc, hth, hs]; exact h.quota c
  rest c hc := by rw [htf, hs]; exact h.rest c hc

theorem exec_pauseLaw {i : Instr} {s t : State} (hc : s.configLaw) (hp : s.pauseLaw) (h : exec i s = .next t) : t.pauseLaw :=
  stepKeepsPauseLaw (s.withFront i) t hc hp h

/-- The flow units follow a command that moves them in one direction. -/
theorem flowsFollow_of {up : Bool} {but : List Chan} {i : Instr} {s t : State} (h : exec i s = .next t)
    (hm : s.configLaw → s.pauseLaw → FlowsMove up but s t) : flowsFollow but s t := by
  intro hc hp c
  obtain ⟨-, -, hchan⟩ := exec_pauseLaw hc hp h
  obtain ⟨hwanted, -, -, hpool, hon, hoff⟩ := hchan c
  have hmoves := (hm hc hp).moves c
  refine ⟨⟨hpool, hon, hoff, (hm hc hp).quota c, hwanted, hmoves.stays, fun hne => ?_, hmoves.flight⟩, (hm hc hp).rest c⟩
  obtain ⟨ha, hpo, hro, hrefresh⟩ := hmoves.turns hne
  rw [ha]
  exact ⟨hpo, hro, hrefresh⟩

/-! ## The pool-low condition -/

theorem evalPoolLow_flowsMove {up : Bool} {s : State} (hflow : ∀ c, (s.chan c).fl.pool = s.pool.low)
    (hleans : ∀ c, (s.chan c).leans up) (hlow : poolLow s.pool ≠ s.pool.low → poolLow s.pool = up) :
    FlowsMove up [] s (evalPoolLow s) where
  moves c := by
    rw [evalPoolLow_chan]
    split
    · exact .of_fl rfl
    · exact poolSettled_flowMoves (hleans c) (hflow c ▸ hlow)
  quota c _ _ := by
    rw [evalPoolLow_chan]
    split
    · rfl
    · exact settled_quota _
  rest c _ := by
    rw [evalPoolLow_chan]
    split
    · exact ⟨rfl, rfl, rfl⟩
    · exact ⟨settled_host _, settled_flHeld _, settled_holdCnt _⟩

theorem quotaCause_between {x : Channel} (hl : x.cfg.lw < x.held) (hh : x.held < x.cfg.hw) : quotaCause x = x.fl.quota := by
  rw [quotaCause, if_neg (Nat.not_le.mpr hh), if_neg (Nat.not_le.mpr hl)]

/-- Counts that have moved in one direction move the flow units in that direction. -/
theorem countsChanged_flowsMove {up : Bool} {c : Chan} {s : State} (hflow : ∀ d, (s.chan d).fl.pool = s.pool.low)
    (hleans : ∀ d, (s.chan d).leans up) (hquota : quotaCause (s.chan c) ≠ (s.chan c).fl.quota → quotaCause (s.chan c) = up)
    (hlow : poolLow s.pool ≠ s.pool.low → poolLow s.pool = up) : FlowsMove up [] s (countsChanged c s) := by
  have hq : FlowsMove up [] s (evalQuota c s) := by
    rw [evalQuota_eq]
    refine ⟨fun d => ?_, fun d => ?_, fun d _ => ?_⟩
    · by_cases hd : d = c
      · subst hd; rw [chan_setChan_same]; exact quotaSettled_flowMoves (hleans d) hquota
      · rw [chan_setChan_other s _ hd]; exact .of_fl rfl
    · by_cases hd : d = c
      · subst hd; rw [chan_setChan_same, quotaSettled_quota, quotaSettled_cfg, quotaSettled_held]; exact quotaCause_between
      · rw [chan_setChan_other s _ hd]; exact fun _ _ => rfl
    · by_cases hd : d = c
      · subst hd; rw [chan_setChan_same]; exact ⟨settled_host _, settled_flHeld _, settled_holdCnt _⟩
      · rw [chan_setChan_other s _ hd]; exact ⟨rfl, rfl, rfl⟩
  have hp : FlowsMove up [] (evalQuota c s) (evalPoolLow (evalQuota c s)) := by
    rw [evalQuota_eq]
    refine evalPoolLow_flowsMove (fun d => ?_) (fun d => ?_) hlow
    · by_cases hd : d = c
      · subst hd; rw [chan_setChan_same]; exact (settled_pool _).trans (hflow d)
      · rw [chan_setChan_other s _ hd]; exact hflow d
    · by_cases hd : d = c
      · subst hd; rw [chan_setChan_same]; exact settled_leans up _
      · rw [chan_setChan_other s _ hd]; exact hleans d
  refine ⟨fun d => (hq.moves d).trans (hp.moves d), fun d hl hh => ?_, fun d hd => ?_⟩
  · have hframe := evalPoolLow_chan_frame (evalQuota c s) d
    have hcfg : ((countsChanged c s).chan d).cfg = ((evalQuota c s).chan d).cfg := by
      have := congrArg Channel.cfg hframe
      exact this
    have hheld : ((countsChanged c s).chan d).held = ((evalQuota c s).chan d).held := by
      have := congrArg Channel.held hframe
      exact this
    refine (hp.quota d hl hh).trans (hq.quota d ?_ ?_)
    · rw [← hcfg, ← hheld]; exact hl
    · rw [← hcfg, ← hheld]; exact hh
  · obtain ⟨hh, hr, hc⟩ := hq.rest d hd
    obtain ⟨hh', hr', hc'⟩ := hp.rest d hd
    exact ⟨hh'.trans hh, hr'.trans hr, hc'.trans hc⟩

/-! ## Frees let go, grants assert -/

theorem quotaCause_freed {x : Channel} (h : x.quotaFits) (n : Nat) :
    quotaCause { x with held := x.held - n } ≠ x.fl.quota → quotaCause { x with held := x.held - n } = false := by
  intro hne
  unfold quotaCause at hne ⊢
  dsimp only at hne ⊢
  split_ifs at hne ⊢ with hhw hlw
  · exact absurd (h.on (by omega)).symm hne
  · rfl
  · exact absurd rfl hne

theorem quotaCause_granted {x : Channel} (h : x.quotaFits) (u : RxUnit) :
    quotaCause { x with held := x.held + 1, rx := u } ≠ x.fl.quota → quotaCause { x with held := x.held + 1, rx := u } = true := by
  intro hne
  unfold quotaCause at hne ⊢
  dsimp only at hne ⊢
  split_ifs at hne ⊢ with hhw hlw
  · rfl
  · exact absurd (h.off (by omega)).symm hne
  · exact absurd rfl hne

theorem poolLow_freed {p q : Pool} (h : p.lowFits) (hr : q.reserve = p.reserve) (hy : q.hyst = p.hyst) (hl : q.low = p.low)
    (hf : p.free.length ≤ q.free.length) : poolLow q ≠ p.low → poolLow q = false := by
  intro hne
  unfold poolLow at hne ⊢
  rw [hr, hy, hl] at *
  split_ifs at hne ⊢ with hon hoff
  · exact absurd (h.on (by omega)).symm hne
  · rfl
  · exact absurd rfl hne

theorem poolLow_granted {p q : Pool} (h : p.lowFits) (hr : q.reserve = p.reserve) (hy : q.hyst = p.hyst) (hl : q.low = p.low)
    (hf : q.free.length ≤ p.free.length) : poolLow q ≠ p.low → poolLow q = true := by
  intro hne
  unfold poolLow at hne ⊢
  rw [hr, hy, hl] at *
  split_ifs at hne ⊢ with hon hoff
  · rfl
  · exact absurd (h.off (by omega)).symm hne
  · exact absurd rfl hne

theorem freeChain_flowsMove {c : Chan} {first : Option BlockNo} {s : State} (hcauses : s.causesLaw)
    (hleans : ∀ d, (s.chan d).leans false) : FlowsMove false [] s (freeChain c first s) := by
  by_cases hn : s.pool.chain first = []
  · rw [freeChain_nil c first s hn]; exact .of_fl fun _ => rfl
  rw [freeChain_eq c first s hn]
  have hfl : ∀ (p : Pool) (n : Nat) (d : Chan),
      ((({ s with pool := p } : State).setChan c { s.chan c with held := n }).chan d).fl = (s.chan d).fl :=
    fun p n d => setChan_proj (s := { s with pool := p }) (c := c) (x := { s.chan c with held := n }) Channel.fl rfl d
  have hcfg : ∀ (p : Pool) (n : Nat) (d : Chan),
      ((({ s with pool := p } : State).setChan c { s.chan c with held := n }).chan d).cfg = (s.chan d).cfg :=
    fun p n d => setChan_proj (s := { s with pool := p }) (c := c) (x := { s.chan c with held := n }) Channel.cfg rfl d
  refine (countsChanged_flowsMove (fun d => ?_) (fun d => leans_congr (hcfg _ _ d) (hfl _ _ d) (hleans d)) ?_ ?_).congr
    (fun d => (hfl _ _ d).symm) (fun _ => rfl) (fun _ => rfl) (fun _ => rfl)
  · rw [hfl]; exact (hcauses.flow d).pool
  · rw [chan_setChan_same]; exact quotaCause_freed (hcauses.quota c) _
  · exact poolLow_freed (p := s.pool) hcauses.low rfl rfl rfl (by simp)

theorem grant_flowsMove {c : Chan} {b : BlockNo} {rest : List BlockNo} {s : State} (hcauses : s.causesLaw)
    (hleans : ∀ d, (s.chan d).leans true) (hfree : s.pool.free = b :: rest) : FlowsMove true [] s (grant c b rest s) := by
  rw [grant_eq]
  have hfl : ∀ (p : Pool) (n : Nat) (u : RxUnit) (d : Chan),
      ((({ s with pool := p } : State).setChan c { s.chan c with held := n, rx := u }).chan d).fl = (s.chan d).fl :=
    fun p n u d => setChan_proj (s := { s with pool := p }) (c := c) (x := { s.chan c with held := n, rx := u }) Channel.fl rfl d
  have hcfg : ∀ (p : Pool) (n : Nat) (u : RxUnit) (d : Chan),
      ((({ s with pool := p } : State).setChan c { s.chan c with held := n, rx := u }).chan d).cfg = (s.chan d).cfg :=
    fun p n u d => setChan_proj (s := { s with pool := p }) (c := c) (x := { s.chan c with held := n, rx := u }) Channel.cfg rfl d
  refine (countsChanged_flowsMove (fun d => ?_) (fun d => leans_congr (hcfg _ _ _ d) (hfl _ _ _ d) (hleans d)) ?_ ?_).congr
    (fun d => (hfl _ _ _ d).symm) (fun _ => rfl) (fun _ => rfl) (fun _ => rfl)
  · rw [hfl]; exact (hcauses.flow d).pool
  · rw [chan_setChan_same]; exact quotaCause_granted (hcauses.quota c) _
  · exact poolLow_granted (p := s.pool) hcauses.low rfl rfl rfl (by simp [hfree])

/-! ## RINGCFG and POOLCFG (R105, R106, R136) -/

theorem exec_ringcfgWrite (w : Word) {s : State} (h : s.resetn = true) :
    exec (.ringcfgWrite w) s = .next (writeRingcfg w s) := congrArg _ (outOfReset_high _ h)

theorem exec_poolcfgWrite (w : Word) {s : State} (h : s.resetn = true) :
    exec (.poolcfgWrite w) s = .next (writePoolcfg w s) := congrArg _ (outOfReset_high _ h)

theorem evalPoolLow_resetn (s : State) : (evalPoolLow s).resetn = s.resetn := by
  have h := congrArg State.resetn (evalPoolLow_frame s); exact h

theorem evalPoolLow_poolcfgRead {s : State} (h : s.resetn = true) : readRegister (evalPoolLow s) 0x08 = s.poolcfgWord := by
  refine (readRegister_high ((evalPoolLow_resetn s).trans h) _).trans ?_
  change (evalPoolLow s).poolcfgWord = _
  rw [State.poolcfgWord, evalPoolLow_pool]
  rfl

/-- Settles O44. -/
theorem ringcfgAndPoolcfgAreCheckedWhole : Obligations.RingcfgAndPoolcfgAreCheckedWhole := by
  unfold Obligations.RingcfgAndPoolcfgAreCheckedWhole
  intro w s hs
  dsimp only
  simp only [← field_eq_extractLsb']
  refine ⟨fun h => ?_, fun h0 h32 => ⟨_, exec_ringcfgWrite w hs, if_neg (by omega), ?_, ?_⟩, fun h => ?_, fun h0 h32 hsum => ?_⟩
  · rw [exec_ringcfgWrite w hs]
    exact congrArg _ (if_pos h)
  · rw [writeRingcfg, if_neg (by omega)]
    refine (readRegister_high (by exact hs) _).trans ?_
    exact fieldsWord_fieldsOf w [(0, 6), (8, 8)] (by decide) (by decide)
  · rw [writeRingcfg, if_neg (by omega)]
    exact rxReady_iff _
  · rw [exec_poolcfgWrite w hs]
    exact congrArg _ (if_pos h)
  · have hw : writePoolcfg w s = evalPoolLow { s with pool := { s.pool with reserve := field w 0 7, hyst := field w 8 6 } } :=
      if_neg (by omega)
    have hexec := exec_poolcfgWrite w hs
    rw [hw] at hexec
    refine ⟨_, hexec, evalPoolLow_pool _, ?_, fun hne c => ?_, ?_, fun hsame => ?_, evalPoolLow_chan_frame _, ?_⟩
    · refine (evalPoolLow_poolcfgRead (by exact hs)).trans ?_
      exact fieldsWord_fieldsOf w [(0, 7), (8, 6)] (by decide) (by decide)
    · rw [evalPoolLow_pool] at hne ⊢
      rw [evalPoolLow_chan, if_neg hne]
      exact settled_pool _
    · refine flowsFollow_of (up := poolLow { s.pool with reserve := field w 0 7, hyst := field w 8 6 }) hexec fun _ hp => ?_
      obtain ⟨hcauses, hkept⟩ := (pauseLaw_iff s).mp hp
      exact (evalPoolLow_flowsMove (s := { s with pool := { s.pool with reserve := field w 0 7, hyst := field w 8 6 } })
        (fun c => (hcauses.flow c).pool) (fun c => leans_of_kept (hkept c)) fun _ => rfl).congr (fun _ => rfl) (fun _ => rfl)
        (fun _ => rfl) fun _ => rfl
    · rw [evalPoolLow_pool] at hsame
      rw [evalPoolLow_eq, if_pos hsame]
    · exact congrArg (fun t : State => { t with pool := s.pool })
        (evalPoolLow_frame { s with pool := { s.pool with reserve := field w 0 7, hyst := field w 8 6 } })

/-! ## HOST_PAUSE and HOST_RESUME (R144) -/

theorem exec_hostCause (c : Chan) (on : Bool) {s : State} (h : s.resetn = true) :
    exec (if on then .hostPause c else .hostResume c) s =
      .next (setCmd .done .none (BitVec.ofNat 8 ((if on then 0x20 else 0x28) + c.val)) (setHostCause on c s)) := by
  cases on <;> exact congrArg _ (outOfReset_high _ h)

theorem settled_eq (x : Channel) :
    x.settled = { x with fl := if pauseWanted x = x.fl.asserted then x.fl else pauseTransition (pauseWanted x) x.fl } := by
  unfold Channel.settled
  split <;> rfl

/-- Settles O52. -/
theorem hostCauseMovesTheLocalPause : Obligations.HostCauseMovesTheLocalPause := by
  unfold Obligations.HostCauseMovesTheLocalPause
  intro c on s hs
  refine ⟨_, exec_hostCause c on hs, rfl, fun d hd => ?_, ?_, ?_⟩
  · rw [setHostCause_eq, chan_setCmd, chan_setChan_other _ _ hd]
  · rw [setHostCause_eq]
    rfl
  · rw [setHostCause_eq, chan_setCmd, chan_setChan_same, settled_eq]
    rfl

/-! ## RELEASE (R134) -/

theorem exec_release {s : State} (h : s.resetn = true) : exec .release s = .next (releaseCmd s) :=
  congrArg _ (outOfReset_high _ h)

theorem freeChain_pool_frame (c : Chan) (first : Option BlockNo) (s : State) :
    { (freeChain c first s).pool with free := s.pool.free, links := s.pool.links, low := s.pool.low } = s.pool := by
  by_cases hn : s.pool.chain first = []
  · rw [freeChain_nil c first s hn]
  · rw [freeChain_eq c first s hn, countsChanged_pool]
    rfl

/-- Settles O43. -/
theorem releaseFreesTheHead : Obligations.ReleaseFreesTheHead := by
  unfold Obligations.ReleaseFreesTheHead
  intro s hs
  rw [exec_release hs]
  refine ⟨fun h => ?_, fun d rest h => ?_⟩
  · rw [releaseCmd, h]
    rfl
  · have hcmd : releaseCmd s = setCmd .done .none 0x04 (releaseHead d rest s) := by rw [releaseCmd, h]
    have hchan : ∀ c, (setCmd .done .none 0x04 (releaseHead d rest s)).chan c = (freeChain d.chan d.first s).chan c :=
      fun _ => rfl
    refine ⟨_, congrArg _ hcmd, rfl, ?_, freeChain_free .., freeChain_links _ _ s, freeChain_pool_frame .., ?_, fun c => ?_, ?_, ?_⟩
    · change { (freeChain d.chan d.first s).ring with entries := rest, readOff := 0, timer := 0 } = _
      rw [freeChain_ring]
    · rw [hchan, freeChain_held, if_pos rfl]
    · dsimp only
      rw [hchan]
      exact ⟨freeChain_chan_frame .., fun hc => by rw [freeChain_held, if_neg hc]⟩
    · refine flowsFollow_of (up := false) ((exec_release hs).trans (congrArg _ hcmd)) fun _ hp => ?_
      obtain ⟨hcauses, hkept⟩ := (pauseLaw_iff s).mp hp
      exact (freeChain_flowsMove hcauses fun c => leans_of_kept (hkept c)).congr (fun _ => rfl) (fun _ => rfl) (fun _ => rfl)
        fun _ => rfl
    · have hframe := congrArg (fun t : State => { t with ring := s.ring, cmd := s.cmd }) (freeChain_frame d.chan d.first s)
      exact hframe

end Sys2Proof.Machine
end

section
/-! PROOFS. The lines of the host bus (spec 10, R174): which change of a strobe is an access, the marks it leaves, and what stands on
D15-D0. -/

namespace Sys2Proof.Machine

open Sys2Proof

/-! ## No write reaches the lines of the bus -/

theorem fall_bus (aborts : Bool) (s : State) : (fall aborts s).bus = s.bus := by
  have h := congrArg State.bus (fall_frame aborts s); exact h

theorem freeChain_bus (c : Chan) (first : Option BlockNo) (s : State) : (freeChain c first s).bus = s.bus := by
  have h := congrArg State.bus (freeChain_frame c first s); exact h

theorem switchBanks_bus (s : State) : (switchBanks s).bus = s.bus := by
  have h := congrArg State.bus (switchBanks_frame s); exact h

theorem abandonSlot_bus (s : State) : (abandonSlot s).bus = s.bus := by
  have h := congrArg State.bus (settleSlot_unworked s s); exact h

theorem evalPause_bus (c : Chan) (s : State) : (evalPause c s).bus = s.bus := by rw [evalPause_eq, setChan_bus]

theorem evalQuota_bus (c : Chan) (s : State) : (evalQuota c s).bus = s.bus := by rw [evalQuota_eq, setChan_bus]

theorem evalPoolLow_bus (s : State) : (evalPoolLow s).bus = s.bus := by
  have h := congrArg State.bus (evalPoolLow_frame s); exact h

theorem setHostCause_bus (on : Bool) (c : Chan) (s : State) : (setHostCause on c s).bus = s.bus := by
  rw [setHostCause_eq, setChan_bus]

theorem discardMsg_bus (c : Chan) (s : State) : (discardMsg c s).bus = s.bus := by
  unfold discardMsg
  split
  · exact freeChain_bus ..
  · split <;> rfl

/-- A choice between two states with the bus of s. -/
theorem ite_bus {p : Prop} [Decidable p] {s t u : State} (ht : t.bus = s.bus) (hu : u.bus = s.bus) :
    (if p then t else u).bus = s.bus := by
  split
  · exact ht
  · exact hu

theorem disableTiming_bus (s : State) : (disableTiming s).bus = s.bus := (fall_bus ..).trans (abandonSlot_bus s)

theorem writeTimcfg_bus (w : Word) (s : State) : (writeTimcfg w s).bus = s.bus := by
  unfold writeTimcfg
  split
  · rfl
  · exact ite_bus rfl (ite_bus (disableTiming_bus _) rfl)

theorem commitCmd_bus (s : State) : (commitCmd s).bus = s.bus := by
  unfold commitCmd
  refine ite_bus rfl ?_
  split
  · rfl
  · exact ite_bus rfl (switchBanks_bus _)

theorem releaseCmd_bus (s : State) : (releaseCmd s).bus = s.bus := by
  unfold releaseCmd
  split
  · rfl
  · exact freeChain_bus ..

theorem flushCmd_bus (c : Chan) (s : State) : (flushCmd c s).bus = s.bus := by
  unfold flushCmd
  dsimp only
  rw [setCmd_bus, setSticky_bus, evalQuota_bus, setFl_bus, setRx_bus, discardMsg_bus, setTx_bus]

theorem runCommand_bus (code : BitVec 8) (s : State) : (runCommand code s).bus = s.bus := by
  unfold runCommand
  split
  · exact commitCmd_bus s
  · exact ite_bus rfl rfl
  · exact ite_bus rfl ((fall_bus ..).trans (abandonSlot_bus s))
  · exact releaseCmd_bus s
  · rfl
  · exact flushCmd_bus ..
  · exact setHostCause_bus ..
  · exact setHostCause_bus ..
  · rfl

theorem enablesStored_bus (c : Chan) (old : ChanCfg) (s : State) : (enablesStored c old s).bus = s.bus := by
  have hrx : ∀ p : Bool, (if p then discardMsg c s else s).bus = s.bus := fun _ => ite_bus (discardMsg_bus c s) rfl
  have htx : ∀ (p : Bool) (u : State), (if p then txDisable c u else u).bus = u.bus :=
    fun _ u => ite_bus (ite_bus rfl (ite_bus rfl rfl)) rfl
  have hfc : ∀ (p : Bool) (u : State), (if p then letGo c u else u).bus = u.bus := fun _ u => ite_bus rfl rfl
  exact (evalPause_bus ..).trans ((hfc ..).trans ((htx ..).trans (hrx _)))

theorem writeChcfg_bus (n : Fin 8) (w : Word) (s : State) : (writeChcfg n w s).bus = s.bus :=
  ite_bus (ite_bus rfl (enablesStored_bus ..)) (ite_bus (ite_bus (evalQuota_bus ..) rfl) rfl)

theorem closeWritten_bus (c : Chan) (s : State) : (closeWritten c s).bus = s.bus := ite_bus (ite_bus rfl rfl) rfl

theorem writeTxdata_bus (c : Chan) (w : Word) (s : State) : (writeTxdata c w s).bus = s.bus := by
  unfold writeTxdata
  dsimp only
  split
  · rw [closeWritten_bus]
    exact ite_bus rfl rfl
  · exact ite_bus rfl rfl

theorem writeRxoffset_bus (w : Word) (s : State) : (writeRxoffset w s).bus = s.bus := by
  unfold writeRxoffset
  split
  · rfl
  · exact ite_bus rfl rfl

theorem writeMapdata_bus (w : Word) (s : State) : (writeMapdata w s).bus = s.bus := by
  unfold writeMapdata
  refine ite_bus rfl (ite_bus rfl ?_)
  split <;> rfl

theorem writeChsel_bus (w : Word) (s : State) : (writeChsel w s).bus = s.bus := by
  unfold writeChsel
  split <;> rfl

theorem hostWrite_bus (off : BitVec 6) (w : Word) (s : State) : (hostWrite off w s).bus = s.bus := by
  unfold hostWrite
  dsimp only
  refine ite_bus (runCommand_bus ..) ?_
  refine ite_bus rfl ?_
  refine ite_bus rfl ?_
  refine ite_bus (writeTimcfg_bus ..) ?_
  refine ite_bus (ite_bus rfl rfl) ?_
  refine ite_bus (ite_bus rfl (evalPoolLow_bus _)) ?_
  refine ite_bus (ite_bus rfl rfl) ?_
  refine ite_bus (writeRxoffset_bus ..) ?_
  refine ite_bus rfl ?_
  refine ite_bus (writeMapdata_bus ..) ?_
  refine ite_bus (ite_bus rfl rfl) ?_
  refine ite_bus (writeChsel_bus ..) ?_
  refine ite_bus rfl ?_
  refine ite_bus (writeChcfg_bus ..) ?_
  refine ite_bus (writeTxdata_bus ..) ?_
  exact ite_bus rfl rfl

/-! ## A read forms the value of its register -/

theorem execRxdataRead_reads {s t : State} (hs : s.resetn = true) (h : execRxdataRead s = .next t) :
    t.bus = s.bus ∧ t.readData = s.rxdataWord := by
  unfold execRxdataRead at h
  unfold State.rxdataWord
  rw [if_pos hs] at h
  cases hring : s.ring.entries with
  | nil =>
    rw [hring] at h
    obtain rfl := Host.Outcome.next.inj h
    exact ⟨rfl, rfl⟩
  | cons d rest =>
    simp only [hring] at h ⊢
    split at h
    · next hend =>
      obtain rfl := Host.Outcome.next.inj h
      rw [if_pos hend]
      exact ⟨rfl, rfl⟩
    · next hend =>
      rw [if_neg hend]
      cases hbyte : s.messageByte d s.ring.readOff with
      | none => rw [hbyte] at h; cases h
      | some b =>
        rw [hbyte] at h
        obtain rfl := Host.Outcome.next.inj h
        exact ⟨rfl, rfl⟩

theorem acknowledge_bus (x : Source) (s : State) : (acknowledge x s).bus = s.bus := by
  have h := congrArg State.bus (acknowledge_frame x s).1; exact h

theorem readCause_reads (s : State) : (readCause s).bus = s.bus ∧ (readCause s).readData = s.causeWord := by
  unfold readCause
  dsimp only
  split
  · exact ⟨rfl, rfl⟩
  · exact ⟨acknowledge_bus .., rfl⟩

/-- A read leaves the lines of the bus, and its value is its register's as it stood (R172, R174, R175). -/
theorem busRead_reads {off : BitVec 6} {s t : State} (h : busRead off s = .next t) :
    t.bus = s.bus ∧ t.readData = readRegister s off := by
  rcases busRead_cases off s with ⟨hs, hr⟩ | ⟨hs, rfl, hr⟩ | ⟨hs, rfl, hr⟩ | ⟨hs, rfl, hr⟩ | ⟨-, -, -, -, hr⟩ <;> rw [hr] at h
  · obtain rfl := Host.Outcome.next.inj h
    exact ⟨rfl, (readRegister_low hs off).symm⟩
  · obtain ⟨hbus, hdata⟩ := execRxdataRead_reads hs h
    exact ⟨hbus, hdata.trans (readRegister_high hs 0x10).symm⟩
  · obtain rfl := Host.Outcome.next.inj h
    exact ⟨rfl, (readRegister_high hs 0x13).symm⟩
  · obtain rfl := Host.Outcome.next.inj h
    obtain ⟨hbus, hdata⟩ := readCause_reads s
    exact ⟨hbus, hdata.trans (readRegister_high hs 0x30).symm⟩
  · obtain rfl := Host.Outcome.next.inj h
    exact ⟨rfl, rfl⟩

/-! ## A strobe moves -/

/-- The lines and marks after RDn has moved (R174). -/
theorem takeRdn_bus {high : Bool} {s t : State} (h : takeRdn high s = .next t) :
    t.bus = if s.bus.readTaken high then { s.bus with rdn := false, reading := true, clash := false }
      else { s.bus with rdn := high }.settled := by
  unfold takeRdn at h
  split at h
  · next hread =>
    rw [if_pos hread]
    exact (busRead_reads h).1
  · next hread =>
    obtain rfl := Host.Outcome.next.inj h
    rw [if_neg hread]

theorem outOfReset_bus {f : State → State} (h : ∀ s, (f s).bus = s.bus) (s : State) : (outOfReset f s).bus = s.bus :=
  ite_bus (h s) rfl

/-- The lines and marks after WRn has moved (R174). -/
theorem takeWrn_bus {high : Bool} {s t : State} (h : takeWrn high s = .next t) : t.bus = { s.bus with wrn := high }.settled := by
  unfold takeWrn at h
  dsimp only at h
  split at h <;> obtain rfl := Host.Outcome.next.inj h
  · exact outOfReset_bus (hostWrite_bus _ _) _
  · rfl

/-! ## What stands on D15-D0 -/

theorem dataPins_of_reading {s : State} (hc : s.bus.csn = false) (hr : s.bus.rdn = false) (hw : s.bus.wrn = true)
    (hreading : s.bus.reading = true) (hclash : s.bus.clash = false) : s.dataPins = some s.readData := by
  simp [State.dataPins, hc, hr, hw, hreading, hclash]

theorem dataPins_of_quiet {s : State} (h : s.bus.csn = true ∨ s.bus.rdn = true ∨ s.bus.wrn = false) : s.dataPins = none := by
  rcases h with h | h | h <;> simp [State.dataPins, h]

theorem dataPins_of_clash {s : State} (h : s.bus.clash = true) : s.dataPins = none := by simp [State.dataPins, h]

theorem dataPins_of_read {s t : State} (hr : s.bus.readTaken false = true) (h : takeRdn false s = .next t) :
    t.dataPins = some (readRegister s s.bus.addr) := by
  have hbus := takeRdn_bus h
  rw [if_pos hr] at hbus
  rw [takeRdn, if_pos hr] at h
  simp only [HostBus.readTaken, Bool.and_eq_true, Bool.not_eq_true'] at hr
  obtain ⟨⟨⟨hcsn, -⟩, -⟩, hwrn⟩ := hr
  rw [dataPins_of_reading (by rw [hbus]; exact hcsn) (by rw [hbus]) (by rw [hbus]; exact hwrn) (by rw [hbus]) (by rw [hbus]),
    (busRead_reads h).2]
  rfl

/-! ## A change of one line -/

theorem writeTaken_eq_false {b : HostBus} (h : b.csn = true ∨ b.rdn = false ∨ b.clash = true ∨ b.wrn = true) :
    b.writeTaken true = false := by
  rcases h with h | h | h | h <;> simp [HostBus.writeTaken, h]

theorem readTaken_eq_false {b : HostBus} (h : b.csn = true ∨ b.rdn = false ∨ b.wrn = false) : b.readTaken false = false := by
  rcases h with h | h | h <;> simp [HostBus.readTaken, h]

theorem settled_clash {b : HostBus} (h : b.csn = false) :
    b.settled.clash = (!b.rdn && !b.wrn || b.clash && !(b.rdn && b.wrn)) := by simp [HostBus.settled, h]

/-- A change of RDn or WRn that is no access leaves its level and the marks (R174). -/
theorem takeRdn_noAccess {high : Bool} {s : State} (h : s.bus.readTaken high = false) :
    takeRdn high s = .next { s with bus := { s.bus with rdn := high }.settled } := if_neg (by simp [h])

theorem takeWrn_noAccess {high : Bool} {s : State} (h : s.bus.writeTaken high = false) :
    takeWrn high s = .next { s with bus := { s.bus with wrn := high }.settled } := if_neg (by simp [h])

theorem takeWrn_low {high : Bool} {s : State} (h : s.resetn = false) :
    takeWrn high s = .next { s with bus := { s.bus with wrn := high }.settled } := by
  cases hw : s.bus.writeTaken high
  · exact takeWrn_noAccess hw
  · rw [takeWrn, if_pos hw]
    exact congrArg _ (outOfReset_low _ (by exact h))

/-- A rising edge of WRn that is an access is the write of the levels of the bus (R174). -/
theorem takeWrn_write {s : State} (h : s.bus.writeTaken true = true) :
    takeWrn true s = exec (.registerWrite s.bus.addr s.bus.data) { s with bus := { s.bus with wrn := true }.settled } :=
  if_pos h

/-- A falling edge of RDn that is an access is the read at the address (R174). -/
theorem takeRdn_read {s : State} (h : s.bus.readTaken false = true) :
    takeRdn false s = busRead s.bus.addr { s with bus := { s.bus with rdn := false, reading := true, clash := false } } :=
  if_pos h

/-- The mark of a clash after RDn has moved with CSn low, but where a read begins under it (R174). -/
theorem takeRdn_clash {high : Bool} {s t : State} (hc : s.bus.csn = false) (h : takeRdn high s = .next t)
    (hor : high = true ∨ s.bus.rdn = false ∨ s.bus.wrn = false ∨ s.bus.clash = false) :
    t.bus.clash = (!high && !s.bus.wrn || s.bus.clash && !(high && s.bus.wrn)) := by
  rw [takeRdn_bus h]
  cases hread : s.bus.readTaken high with
  | false => exact settled_clash hc
  | true =>
    simp only [HostBus.readTaken, Bool.and_eq_true, Bool.not_eq_true'] at hread
    obtain ⟨⟨⟨-, hrdn⟩, rfl⟩, hwrn⟩ := hread
    have hclash : s.bus.clash = false := by simpa [hrdn, hwrn] using hor
    simp [hwrn, hclash]

theorem dataPins_congr {s t : State} (hb : t.bus = s.bus) (hd : t.readData = s.readData) : t.dataPins = s.dataPins := by
  simp only [State.dataPins, hb, hd]

/-- A change of an address line, a data line, HWSENSE or HWCLK leaves D15-D0 as they stood. -/
theorem takePin_dataPins {p : PinChange} {s t : State} {a : BitVec 6} {w : Word}
    (hp : p ∈ [PinChange.address a, .data w, .sense true, .sense false, .hwclkFalls]) (h : takePin p s = .next t) :
    t.dataPins = s.dataPins := by
  simp only [List.mem_cons, List.not_mem_nil, or_false] at hp
  rcases hp with rfl | rfl | rfl | rfl | rfl <;> obtain rfl := Host.Outcome.next.inj h <;> rfl

/-- A rise of CSn or RDn and a fall of WRn end what stands on D15-D0. -/
theorem takePin_ends {p : PinChange} {s t : State} (hp : p ∈ [PinChange.csn true, .rdn true, .wrn false])
    (h : takePin p s = .next t) : t.dataPins = none := by
  simp only [List.mem_cons, List.not_mem_nil, or_false] at hp
  rcases hp with rfl | rfl | rfl
  · obtain rfl := Host.Outcome.next.inj h
    exact dataPins_of_quiet (.inl rfl)
  · refine dataPins_of_quiet (.inr (.inl ?_))
    rw [takeRdn_bus h, if_neg (by simp [HostBus.readTaken])]
    rfl
  · refine dataPins_of_quiet (.inr (.inr ?_))
    rw [takeWrn_bus h]
    rfl

/-- The lines and marks where a change of one of CSn, RDn and WRn is no access. -/
def HostBus.unread (b : HostBus) (p : PinChange) : HostBus :=
  match p with
  | .csn high => { b with csn := high }.settled
  | .rdn high => { b with rdn := high }.settled
  | .wrn high => { b with wrn := high }.settled
  | .address _ | .data _ | .sense _ | .hwclkFalls => b

theorem takePin_noAccess {p : PinChange} (hp : p ∈ [PinChange.csn true, .csn false, .rdn true, .wrn false]) (s : State) :
    takePin p s = .next { s with bus := s.bus.unread p } := by
  simp only [List.mem_cons, List.not_mem_nil, or_false] at hp
  rcases hp with rfl | rfl | rfl | rfl
  · rfl
  · rfl
  · exact takeRdn_noAccess (by simp [HostBus.readTaken])
  · exact takeWrn_noAccess (by simp [HostBus.writeTaken])

/-- What the read of each register with a side effect is, and what every other read is (R174, R175). -/
theorem busRead_high {s : State} (hs : s.resetn = true) :
    busRead 0x10 s = exec .rxdataRead s ∧ busRead 0x13 s = exec .mapdataRead s ∧ busRead 0x30 s = exec .causeRead s ∧
    ∀ off, off ≠ 0x10 → off ≠ 0x13 → off ≠ 0x30 → busRead off s = .next { s with readData := readRegister s off } := by
  have hlow : ¬ (!s.resetn) = true := by simp [hs]
  refine ⟨if_neg hlow, (if_neg hlow).trans ?_, (if_neg hlow).trans ?_, fun off h1 h2 h3 => ?_⟩
  · exact congrArg Host.Outcome.next (outOfReset_high readMapdata hs).symm
  · exact congrArg Host.Outcome.next (outOfReset_high readCause hs).symm
  · rw [busRead, if_neg hlow, if_neg h1, if_neg h2, if_neg h3]
    rfl

theorem busRead_low {off : BitVec 6} {s : State} (hs : s.resetn = false) : busRead off s = .next { s with readData := 0 } :=
  if_pos (by simp [hs])

theorem timstat_sense {s : State} (hs : s.resetn = true) : (readRegister s 0x06).getLsbD 6 = s.hwsense :=
  register_bit hs rfl (timstatFields_fit s) 3 rfl

/-- Settles O3. -/
theorem busStrobesAreAccesses : Obligations.BusStrobesAreAccesses := by
  unfold Obligations.BusStrobesAreAccesses
  intro rest s hpending
  dsimp only
  have hat : ∀ p, step { s with inputs := p :: rest } = takePin p { s with inputs := rest } := fun p => step_pin hpending rfl
  have hwrite : ∀ high t, s.bus.csn = false → takePin (.wrn high) { s with inputs := rest } = .next t →
      t.bus.clash = (!s.bus.rdn && !high || s.bus.clash && !(s.bus.rdn && high)) := fun high t hc h => by
    rw [takeWrn_bus (s := { s with inputs := rest }) h]
    exact settled_clash (b := { s.bus with wrn := high }) hc
  have hread : ∀ high t, s.bus.csn = false → takePin (.rdn high) { s with inputs := rest } = .next t →
      high = true ∨ s.bus.rdn = false ∨ s.bus.wrn = false ∨ s.bus.clash = false →
      t.bus.clash = (!high && !s.bus.wrn || s.bus.clash && !(high && s.bus.wrn)) :=
    fun high t hc h => takeRdn_clash (s := { s with inputs := rest }) hc h
  have htaken : s.bus.csn = false → s.bus.rdn = true → s.bus.wrn = true → s.bus.readTaken false = true := fun hc hr hw => by
    simp [HostBus.readTaken, hc, hr, hw]
  simp only [hat]
  refine ⟨fun hs hc hw hr hcl => ?_, fun hs hc hr hw => ?_, fun p hp => ?_, fun h => ?_, fun h => ?_, hwrite, hread, fun hc hr t h => ?_,
    fun hc hw t h => ?_, fun hc hcl hr t h => ?_, fun hc hcl hw t h => ?_, fun p hp t h => takePin_ends hp h, dataPins_of_quiet,
    fun a w => ⟨rfl, rfl, fun p hp t h => ?_⟩, fun hs => ⟨?_, fun hc hr hw => ⟨?_, fun t h => ?_⟩⟩, fun high => ⟨rfl, fun hs => ?_⟩, rfl,
    fun hc hcl t h => ?_⟩
  · refine (takeWrn_write (s := { s with inputs := rest }) (by simp [HostBus.writeTaken, hc, hw, hr, hcl])).trans ?_
    have hbus : { s.bus with wrn := true }.settled = { s.bus with wrn := true, reading := false } := by
      simp [HostBus.settled, hc, hr, hcl]
    rw [hbus]
  · obtain ⟨h10, h13, h30, hother⟩ :=
      busRead_high (s := { s with inputs := rest, bus := { s.bus with rdn := false, reading := true, clash := false } }) hs
    have hbegun := takeRdn_read (s := { s with inputs := rest }) (htaken hc hr hw)
    refine ⟨fun ha => ?_, fun ha => ?_, fun ha => ?_, fun h1 h2 h3 => hbegun.trans (hother _ h1 h2 h3),
      fun t h => dataPins_of_read (s := { s with inputs := rest }) (htaken hc hr hw) h⟩
    · exact hbegun.trans ((congrArg (busRead · _) ha).trans h10)
    · exact hbegun.trans ((congrArg (busRead · _) ha).trans h13)
    · exact hbegun.trans ((congrArg (busRead · _) ha).trans h30)
  · rw [takePin_noAccess hp]
    simp only [List.mem_cons, List.not_mem_nil, or_false] at hp
    rcases hp with rfl | rfl | rfl | rfl <;> rfl
  · exact takeWrn_noAccess (s := { s with inputs := rest }) (writeTaken_eq_false h)
  · exact takeRdn_noAccess (s := { s with inputs := rest }) (readTaken_eq_false h)
  · rw [hwrite false t hc h]; simp [hr]
  · rw [hread false t hc h (.inr (.inr (.inl hw)))]; simp [hw]
  · have hclash : t.bus.clash = true := by rw [hwrite true t hc h]; simp [hr, hcl]
    exact ⟨hclash, dataPins_of_clash hclash⟩
  · rw [hread true t hc h (.inl rfl)]; simp [hw, hcl]
  · exact takePin_dataPins (s := { s with inputs := rest }) hp h
  · exact takeWrn_low (s := { s with inputs := rest }) hs
  · exact (takeRdn_read (s := { s with inputs := rest }) (htaken hc hr hw)).trans (busRead_low hs)
  · exact (dataPins_of_read (s := { s with inputs := rest }) (htaken hc hr hw) h).trans (congrArg some (readRegister_low hs _))
  · exact timstat_sense (s := { s with inputs := rest, hwsense := high }) hs
  · obtain rfl := Host.Outcome.next.inj h
    rfl

end Sys2Proof.Machine
end

section
/-! PROOFS. A switch (spec 03, R49, R53), an accepted COMMIT (R48), and the host's disable of the timing unit (spec 02, R21). -/

namespace Sys2Proof.Machine

open Sys2Proof

/-! ## What a switch leaves -/

theorem switchBanks_peer (s : State) : switchPeers true s (switchBanks s) := by
  intro c
  rw [switchBanks_chan, noticed_peer, Peer.noticed]
  cases s.map.shadow.gives .rx c <;> rfl

theorem switchBanks_events (s : State) : switchEvents true s (switchBanks s) := by
  refine ⟨switchBanks_flag s .commitDone, fun c => ?_⟩
  rw [Bool.true_and]
  exact switchBanks_flag s (.peerChange c)

theorem switchBanks_raisedWithin (s : State) : raisedWithin switchSources s (switchBanks s) := by
  refine ⟨?_, fun x _ hx => ?_⟩
  · have h := congrArg (fun v : EventUnit => ({ v with latched := (switchBanks s).ev.latched } : EventUnit))
      (switchBanks_evFrame s.ev.latched s)
    exact h
  · have hflag := switchBanks_flag s x
    rw [switchRaises_of_not_mem hx, Bool.or_false] at hflag
    exact hflag

/-- A count is that of one part and of its rest. -/
theorem countP_split {α : Type} (p q : α → Bool) (l : List α) :
    (l.countP fun a => !q a && p a) + (l.countP fun a => q a && p a) = l.countP p := by
  induction l with
  | nil => rfl
  | cons a l ih =>
    simp only [List.countP_cons, ← ih]
    cases q a <;> cases p a <;> simp <;> omega

/-- The reservations of channels that a switch leaves without an RX slot become descriptors, and no others (R122, R129). -/
theorem switchBanks_ring (s : State) : ∃ ds, (switchBanks s).ring = s.ring.joined ds ∧
    ds.length = (channels.countP fun c => !s.map.shadow.gives .rx c && (s.chan c).rx.reserves) ∧
    ∀ c, s.map.shadow.gives .rx c = false → (s.chan c).rx.reserves = true → endedAs c .unmapped s ∈ ds := by
  obtain ⟨ds, hring, hlen, hmem⟩ := (switchBanks_messagesEnd s).ring
  have hres : ∀ c, ((switchBanks s).chan c).rx.reserves = (s.map.shadow.gives .rx c && (s.chan c).rx.reserves) := by
    intro c
    rw [switchBanks_chan, noticed_rx]
    cases s.map.shadow.gives .rx c <;> simp
  refine ⟨ds, hring, ?_, fun c hg hr => ?_⟩
  · simp only [State.reservations, hres] at hlen
    have hsplit := countP_split (fun c => (s.chan c).rx.reserves) (fun c => s.map.shadow.gives .rx c) channels
    omega
  · obtain ⟨k, hk, hin⟩ := hmem c hr (by rw [hres, hg, Bool.false_and])
    exact List.mem_singleton.mp hk ▸ hin

theorem noticed_tx (b : Bank) (c : Chan) (x : Channel) :
    (x.noticed b c).tx = if b.gives .tx c then x.tx else x.tx.unmapped := by
  unfold Channel.noticed
  cases b.gives .tx c <;> cases b.gives .rx c <;> rfl

theorem noticed_rest (b : Bank) (c : Chan) (x : Channel) : (x.noticed b c).cfg = x.cfg ∧ (x.noticed b c).sticky = x.sticky ∧
    (x.noticed b c).fl = x.fl ∧ (x.noticed b c).held = x.held := by
  unfold Channel.noticed
  cases b.gives .tx c <;> cases b.gives .rx c <;> exact ⟨rfl, rfl, rfl, rfl⟩

theorem closed_eq (u : RxUnit) : u.closed = if u.st = .idle then u else endedUnit u := by
  split
  · next h => exact closed_of_idle h
  · next h => exact closed_eq_endedUnit h

/-- A switch leaves what R49 and R53 say. -/
theorem switchBanks_made (s : State) : switchMade s (switchBanks s) := by
  obtain ⟨ds, hring, hlen, hmem⟩ := switchBanks_ring s
  refine ⟨switchBanks_map s, switchBanks_events s, switchBanks_raisedWithin s, switchBanks_peer s, ?_, ?_, fun c => ?_⟩
  · rw [hring, ← hlen]
    refine ⟨⟨ds, rfl⟩, List.length_append, ?_⟩
    simp [Ring.joined, timerAfter, List.length_eq_zero_iff]
  · have hframe := congrArg (fun t : State => ({ t with map := s.map, cmd := s.cmd } : State)) (switchBanks_frame s)
    exact hframe
  · dsimp only
    rw [switchBanks_chan, noticed_tx, noticed_rx]
    obtain ⟨hcfg, hsticky, hfl, hheld⟩ := noticed_rest s.map.shadow c (s.chan c)
    refine ⟨hcfg, hsticky, hfl, hheld, fun h => if_pos h, fun h => ?_, fun h => if_pos h, fun h => ⟨?_, fun hr => ?_⟩⟩
    · rw [h]; rfl
    · rw [h]; exact closed_eq _
    · rw [hring]
      exact List.mem_append_right _ (hmem c h hr)

theorem switchBanks_cmd (s : State) : (switchBanks s).cmd = s.cmd := by
  have h := congrArg State.cmd (switchBanks_frame s); exact h

/-- Settles O15. -/
theorem switchTakesShadow : Obligations.SwitchTakesShadow := by
  unfold Obligations.SwitchTakesShadow
  intro s hs
  have hexec : exec .switch s = .next (if s.map.commit = .pending then switchBanks s else s) :=
    congrArg _ (outOfReset_high _ hs)
  refine ⟨fun hidle => ?_, fun hpending => ⟨_, ?_, switchBanks_made s, switchBanks_cmd s⟩⟩
  · rw [hexec, if_neg (not_pending_of_idle hidle)]
  · rw [hexec, if_pos hpending]

/-! ## An accepted COMMIT -/

theorem noReturnChan_of_none {s : State} {b : Bank} (h : ∀ c, (s.chan c).cfg.rx = true → (s.chan c).cfg.fc = true →
    b.gives .rx c = true → b.gives .tx c = true) : s.noReturnChan b = none := by
  refine List.find?_eq_none.mpr fun c _ hc => ?_
  simp only [Bank.noReturn, Bool.and_eq_true, Bool.not_eq_true'] at hc
  obtain ⟨⟨hrx, hfc⟩, hgives, hnone⟩ := hc
  exact Bool.false_ne_true (hnone.symm.trans (h c hrx hfc hgives))

theorem commitCheck_of_none {s : State} (hlen : ¬ s.lengthLocked) (hb : s.map.shadow.beyond = none)
    (hc : s.noReturnChan s.map.shadow = none) : commitCheck s = none := by
  rw [State.lengthLocked] at hlen
  rw [commitCheck, if_neg hlen, hb]
  simp only [hc]

theorem commitCmd_accepted {s : State} (h : s.map.commit = .idle) (hc : commitCheck s = none) :
    commitCmd s = acceptCommit s := by
  rw [commitCmd, if_neg (not_pending_of_idle h), hc]

theorem acceptCommit_waits {s : State} (h : s.tim.st.holdsSwitch = true) : acceptCommit s =
    setCmd .pending .none 0x01 { s with map := { s.map with commit := .pending, result := .none, reason := .none, detail := 0 } } :=
  if_pos h

theorem acceptCommit_switches {s : State} (h : ¬ s.tim.st.holdsSwitch = true) : acceptCommit s =
    setCmd .done .none 0x01 (switchBanks { s with map := { s.map with result := .none, reason := .none, detail := 0 } }) :=
  if_neg h

/-- MAPSTAT and the command-status record are not read by what a switch leaves. -/
theorem switchMade_cleared {s t : State} {a : CmdResult} {r : Reason} {k : BitVec 8}
    (h : switchMade { s with map := { s.map with result := .none, reason := .none, detail := 0 } } t) :
    switchMade s (setCmd a r k t) := by
  obtain ⟨hmap, hevents, hraised, hpeers, hring, hframe, hchan⟩ := h
  have hframe' := congrArg (fun t : State => ({ t with map := s.map } : State)) hframe
  exact ⟨hmap, hevents, hraised, hpeers, hring, hframe', hchan⟩

/-- Settles O11. -/
theorem commitAccepted : Obligations.CommitAccepted := by
  unfold Obligations.CommitAccepted
  intro s hs hidle hlen hbeyond hpath
  have hcheck : commitCheck s = none := commitCheck_of_none
    (fun ⟨hne, hoff⟩ => hlen.elim hne hoff)
    (Bank.beyond_of_none fun k ⟨hk, hm⟩ => hm (hbeyond k hk)) (noReturnChan_of_none hpath)
  rw [exec_commit hs, commitCmd_accepted hidle hcheck]
  refine ⟨fun hst => ?_, fun hst => ⟨_, rfl, ?_⟩⟩
  · rw [acceptCommit_waits (by rcases hst with h | h | h <;> rw [h] <;> rfl)]
    rfl
  · rw [acceptCommit_switches (by rcases hst with h | h | h <;> rw [h] <;> decide)]
    exact ⟨rfl, switchMade_cleared (switchBanks_made _)⟩

end Sys2Proof.Machine
end

section
/-! PROOFS. The delivery of a slot's result does not read the timing unit but for the frame counter (spec 01, R11, R13), nor the slot: it
is the same before and after a change of the unit that keeps that counter. With it TIMING_DISABLE (spec 02, R21), of which a result that is due
comes first (R15). -/

namespace Sys2Proof.Machine

open Sys2Proof

/-! ## The timing unit changed -/

/-- The state with its timing unit and its slot changed. -/
def State.retimed (s : State) (k : Timing → Timing) (j : SlotPhase → SlotPhase) : State := { s with tim := k s.tim, slot := j s.slot }

section

variable {k : Timing → Timing} {j : SlotPhase → SlotPhase}

/-- A choice is the same on both sides of the change. -/
theorem ite_retimed {p : Prop} [Decidable p] {t u t' u' : State} (ht : t' = t.retimed k j) (hu : u' = u.retimed k j) :
    (if p then t' else u') = (if p then t else u).retimed k j := by
  split
  · exact ht
  · exact hu

theorem takeAll_retimed {l : List (State → State)} (h : ∀ f ∈ l, ∀ s, f (s.retimed k j) = (f s).retimed k j) (s : State) :
    takeAll l (s.retimed k j) = (takeAll l s).retimed k j :=
  takeAll_commutes id (·.retimed k j) (fun f hf u t hut => by
    dsimp only [id] at hut ⊢
    rw [hut, h f hf]) rfl

/-! ## ECHO_RESULT -/

theorem abortMatched_retimed (c : Chan) (s : State) : abortMatched c (s.retimed k j) = (abortMatched c s).retimed k j :=
  ite_retimed rfl rfl

theorem matchedEcho_retimed (c : Chan) (f : TxFlight) (s : State) :
    matchedEcho c f (s.retimed k j) = (matchedEcho c f s).retimed k j := by
  unfold matchedEcho
  split
  · exact abortMatched_retimed c s
  · rfl

theorem collide_retimed (c : Chan) (f : TxFlight) (s : State) : collide c f (s.retimed k j) = (collide c f s).retimed k j :=
  ite_retimed rfl rfl

theorem outstandingTest_retimed (c : Chan) (reenabled : Bool) (s : State) :
    outstandingTest c reenabled (s.retimed k j) = (outstandingTest c reenabled s).retimed k j :=
  ite_retimed (ite_retimed rfl rfl) rfl

theorem txEcho_retimed (c : Chan) (ok : Bool) (s : State) : txEcho c ok (s.retimed k j) = (txEcho c ok s).retimed k j := by
  have hflight : ((s.retimed k j).chan c).tx.flight = (s.chan c).tx.flight := rfl
  unfold txEcho
  rw [hflight]
  cases (s.chan c).tx.flight with
  | none => rfl
  | some f =>
    dsimp only
    rw [← outstandingTest_retimed]
    refine congrArg (outstandingTest c _) (ite_retimed ?_ (ite_retimed ?_ rfl))
    · exact matchedEcho_retimed c f (s.setTx c { (s.chan c).tx with flight := none })
    · exact collide_retimed c f (s.setTx c { (s.chan c).tx with flight := none })

theorem reportEcho_retimed (c : Chan) (ok : Bool) (s : State) : reportEcho c ok (s.retimed k j) = (reportEcho c ok s).retimed k j := by
  unfold reportEcho
  dsimp only
  rw [txEcho_retimed]
  rfl

theorem advanceSlot_retimed (n : Nat) (s : State) : advanceSlot n (s.retimed k id) = (advanceSlot n s).retimed k id :=
  ite_retimed rfl rfl

theorem echoStep_retimed (s : State) : echoStep (s.retimed k id) = (echoStep s).retimed k id := by
  have hslot : (s.retimed k id).slot = s.slot := rfl
  unfold echoStep
  rw [hslot]
  cases s.slot with
  | idle => rfl
  | frameDone => rfl
  | inSlot x =>
    cases hw : x.word with
    | none => simp only [hw]
    | some w =>
      simp only [hw]
      refine ite_retimed ?_ rfl
      rw [reportEcho_retimed, advanceSlot_retimed]

/-! ## RX_WORD -/

theorem evalPause_retimed (c : Chan) (s : State) : evalPause c (s.retimed k j) = (evalPause c s).retimed k j := ite_retimed rfl rfl

theorem evalQuota_retimed (c : Chan) (s : State) : evalQuota c (s.retimed k j) = (evalQuota c s).retimed k j :=
  evalPause_retimed c (s.setFl c { (s.chan c).fl with quota := quotaCause (s.chan c) })

theorem evalPoolLow_retimed (s : State) : evalPoolLow (s.retimed k j) = (evalPoolLow s).retimed k j := by
  refine ite_retimed rfl (takeAll_retimed (s := { s with pool := { s.pool with low := poolLow s.pool } }) fun f hf t => ?_)
  obtain ⟨c, -, rfl⟩ := List.mem_map.mp hf
  exact evalPause_retimed c (t.setFl c { (t.chan c).fl with pool := poolLow s.pool })

theorem countsChanged_retimed (c : Chan) (s : State) : countsChanged c (s.retimed k j) = (countsChanged c s).retimed k j := by
  unfold countsChanged
  rw [evalQuota_retimed, evalPoolLow_retimed]

theorem freeChain_retimed (c : Chan) (first : Option BlockNo) (s : State) :
    freeChain c first (s.retimed k j) = (freeChain c first s).retimed k j := by
  by_cases hn : s.pool.chain first = []
  · rw [freeChain_nil c first s hn, freeChain_nil c first (s.retimed k j) hn]
  · rw [freeChain_eq c first s hn, freeChain_eq c first (s.retimed k j) hn, ← countsChanged_retimed]
    rfl

theorem discardMsg_retimed (c : Chan) (s : State) : discardMsg c (s.retimed k j) = (discardMsg c s).retimed k j := by
  refine ite_retimed ?_ (ite_retimed rfl rfl)
  have hfree : freeChain c ((s.retimed k j).chan c).rx.first (s.retimed k j) = _ := freeChain_retimed c (s.chan c).rx.first s
  rw [hfree]
  rfl

theorem overrunMsg_retimed (c : Chan) (s : State) : overrunMsg c (s.retimed k j) = (overrunMsg c s).retimed k j := by
  have hfree : freeChain c ((s.retimed k j).chan c).rx.first (s.retimed k j) = _ := freeChain_retimed c (s.chan c).rx.first s
  unfold overrunMsg
  rw [hfree]
  rfl

theorem grant_retimed (c : Chan) (b : BlockNo) (rest : List BlockNo) (s : State) :
    grant c b rest (s.retimed k j) = (grant c b rest s).retimed k j := by
  rw [grant_eq, grant_eq, ← countsChanged_retimed]
  rfl

theorem putByte_retimed (c : Chan) (m : BlockNo) (b : Byte) (s : State) :
    putByte c m b (s.retimed k j) = (putByte c m b s).retimed k j := rfl

theorem storeByte_retimed (c : Chan) (b : Byte) (s : State) : storeByte c b (s.retimed k j) = (storeByte c b s).retimed k j := by
  by_cases hlen : (s.chan c).cfg.maxLen ≤ (s.chan c).rx.len
  · rw [storeByte_truncates c b s hlen, storeByte_truncates c b (s.retimed k j) hlen]
    rfl
  rw [Nat.not_le] at hlen
  by_cases hroom : (s.chan c).rx.cur = none ∨ 32 ≤ (s.chan c).rx.fill
  · by_cases hgrant : (s.chan c).cfg.quota ≤ (s.chan c).held ∨ s.pool.free = []
    · rw [storeByte_overruns c b s hlen hroom hgrant, storeByte_overruns c b (s.retimed k j) hlen hroom hgrant, overrunMsg_retimed]
    · rw [not_or, Nat.not_le] at hgrant
      obtain ⟨hquota, hfree⟩ := hgrant
      obtain ⟨m, rest, hm⟩ := List.exists_cons_of_ne_nil hfree
      rw [storeByte_grants c b s m rest hlen hroom hquota hm, storeByte_grants c b (s.retimed k j) m rest hlen hroom hquota hm,
        grant_retimed, putByte_retimed]
  · rw [not_or, Nat.not_le] at hroom
    obtain ⟨hcur, hfill⟩ := hroom
    obtain ⟨n, hn⟩ := Option.ne_none_iff_exists'.mp hcur
    rw [storeByte_stores c b s n hlen hn hfill, storeByte_stores c b (s.retimed k j) n hlen hn hfill, putByte_retimed]

theorem beginMsg_retimed (c : Chan) (b : Byte) (s : State) : beginMsg c b (s.retimed k j) = (beginMsg c b s).retimed k j :=
  ite_retimed (storeByte_retimed c b ((takeReservation s).setRx c { (s.chan c).rx with st := .opened })) rfl

theorem takeByte_retimed (c : Chan) (b : Byte) (s : State) : takeByte c b (s.retimed k j) = (takeByte c b s).retimed k j := by
  have hst : ((s.retimed k j).chan c).rx.st = (s.chan c).rx.st := rfl
  unfold takeByte
  rw [hst]
  cases (s.chan c).rx.st with
  | idle => exact beginMsg_retimed c b s
  | opened => exact storeByte_retimed c b s
  | truncating => rfl
  | overrun => rfl
  | starved => rfl

variable (hk : ∀ t, (k t).frameCnt = t.frameCnt)
include hk

theorem closeMsg_retimed (c : Chan) (cause : MsgStatus) (s : State) :
    closeMsg c cause (s.retimed k j) = (closeMsg c cause s).retimed k j := by
  have hending : endingOf cause c (s.retimed k j) = endingOf cause c s := by
    have hdesc : ∀ status, descriptorOf c status (s.retimed k j) = descriptorOf c status s := fun status => by
      unfold descriptorOf
      exact congrArg (fun n => ({ descriptorOf c status s with stamp := n } : Descriptor)) (hk s.tim)
    unfold endingOf
    simp only [hdesc]
    rfl
  rw [closeMsg_joined, closeMsg_joined, hending]
  rfl

theorem takeMessageWord_retimed (c : Chan) (b : Byte) (last : Bool) (s : State) :
    takeMessageWord c b last (s.retimed k j) = (takeMessageWord c b last s).retimed k j := by
  refine ite_retimed ?_ rfl
  have htake : takeByte c b ((s.retimed k j).setRx c { ((s.retimed k j).chan c).rx with seen := true }) = _ :=
    takeByte_retimed c b (s.setRx c { (s.chan c).rx with seen := true })
  dsimp only
  rw [htake]
  exact ite_retimed (closeMsg_retimed hk ..) rfl

theorem deliver_retimed (c : Chan) (q : RxClass) (s : State) : deliver c q (s.retimed k j) = (deliver c q s).retimed k j := by
  cases q with
  | silent => rfl
  | idle => rfl
  | corrupt => exact ite_retimed (ite_retimed rfl rfl) rfl
  | data b => exact takeMessageWord_retimed hk c b false (s.setPeer c { (s.chan c).peer with mark := true })
  | last b => exact takeMessageWord_retimed hk c b true (s.setPeer c { (s.chan c).peer with mark := true })
  | abort => exact ite_retimed (discardMsg_retimed c (s.setPeer c { (s.chan c).peer with mark := true })) rfl
  | pause => exact ite_retimed rfl rfl
  | resume => exact ite_retimed rfl rfl
  | unknownCtrl => rfl

theorem rxWordStep_retimed (s : State) : rxWordStep (s.retimed k id) = (rxWordStep s).retimed k id := by
  have hslot : (s.retimed k id).slot = s.slot := rfl
  unfold rxWordStep
  rw [hslot]
  cases s.slot with
  | idle => rfl
  | frameDone => rfl
  | inSlot x =>
    refine ite_retimed ?_ rfl
    rw [deliver_retimed hk, advanceSlot_retimed]

theorem settleSlot_retimed (s : State) : settleSlot (s.retimed k id) = (settleSlot s).retimed k id := by
  unfold settleSlot
  rw [echoStep_retimed, rxWordStep_retimed hk]

theorem abandonSlot_retimed (hst : ∀ t, (k t).st = t.st) (s : State) : abandonSlot (s.retimed k id) = (abandonSlot s).retimed k id := by
  unfold abandonSlot
  rw [settleSlot_retimed hk]
  generalize settleSlot s = u
  have hdrives : (u.retimed k id).drivesClock = u.drivesClock := by
    unfold State.drivesClock
    exact congrArg (fun st => decide (st = TimState.driving)) (hst u.tim)
  have hhold : (u.retimed k id).holdLeft = u.holdLeft := by
    unfold State.holdLeft State.bitBegun State.hwclkPin
    rw [hdrives]
    rfl
  unfold dropSlot
  rw [hhold]
  rfl

end

/-! ## TIMING_DISABLE (R21) -/

/-- The timing unit with the fields of a word that disables it and names its role and rank (R16). -/
def Timing.switchedOff (w : Word) (t : Timing) : Timing := { t with limit := (w.extractLsb' 8 4).toNat, enable := false }

theorem not_rejects_of_same {t : Timing} {w : Word} (hl : (w.extractLsb' 8 4).toNat ≠ 0)
    (hrole : (w.extractLsb' 0 2).toNat = t.role.code) (hrank : (w.extractLsb' 4 3).toNat = t.rank.val) : ¬ t.rejects w := by
  rintro (h | h | ⟨-, h | h⟩)
  · exact hl h
  · rw [hrole] at h
    revert h
    cases t.role <;> decide
  · exact h hrole
  · exact h hrank

/-- A word that disables the unit and names its role and rank: the slot is settled and abandoned, and the unit falls to OFF. -/
theorem writeTimcfg_off {w : Word} {s : State} (he : s.tim.enable = true) (hw : w.getLsbD 15 = false)
    (hl : (w.extractLsb' 8 4).toNat ≠ 0) (hrole : (w.extractLsb' 0 2).toNat = s.tim.role.code)
    (hrank : (w.extractLsb' 4 3).toNat = s.tim.rank.val) :
    writeTimcfg w s = fall s.tim.st.aborts { abandonSlot s with tim := (s.tim.switchedOff w).disabled } := by
  obtain ⟨r, hr, hdisables⟩ := writeTimcfg_disables (not_rejects_of_same hl hrole hrank) he hw
  obtain rfl := Role.code_inj.mp (hr.trans hrole)
  have hchan : chanField w 4 = s.tim.rank := Fin.ext ((chanField_val w 4).trans hrank)
  have hstored : s.tim.storing w s.tim.role = s.tim.switchedOff w := by
    rw [Timing.storing, hchan, hw]
    rfl
  have habandon : abandonSlot { s with tim := s.tim.switchedOff w } = _ :=
    abandonSlot_retimed (k := Timing.switchedOff w) (fun _ => rfl) (fun _ => rfl) s
  rw [hdisables, hstored, disableTiming, habandon]
  rfl

/-- A result that is due comes first: the disable is the same after it (R15). -/
theorem writeTimcfg_off_settled {w : Word} {s : State} (he : s.tim.enable = true) (hw : w.getLsbD 15 = false)
    (hl : (w.extractLsb' 8 4).toNat ≠ 0) (hrole : (w.extractLsb' 0 2).toNat = s.tim.role.code)
    (hrank : (w.extractLsb' 4 3).toNat = s.tim.rank.val) : writeTimcfg w (settleSlot s) = writeTimcfg w s := by
  have htim := settleSlot_tim s
  rw [writeTimcfg_off he hw hl hrole hrank,
    writeTimcfg_off (by rwa [htim]) hw hl (by rwa [htim]) (by rwa [htim]), htim, abandonSlot_settleSlot]

/-- Settles O17: a result that is due comes first, and the rest is the fall to OFF, of which each part is a lemma above. -/
theorem timingDisableEndsInOff : Obligations.TimingDisableEndsInOff := by
  unfold Obligations.TimingDisableEndsInOff
  intro w s hs he hw hl hrole hrank
  obtain ⟨-, hexec, -⟩ := exec_timcfg w hs
  refine ⟨resultFirst_of_settled hs ?_, fun hover => ⟨_, hexec, ?_⟩⟩
  · obtain ⟨-, hexec', -⟩ := exec_timcfg w (s := settleSlot s) (by rwa [settleSlot_resetn])
    rw [hexec, hexec', writeTimcfg_off_settled he hw hl hrole hrank]
  · have hfall : writeTimcfg w s = s.fallTo (s.tim.switchedOff w).disabled := by
      rw [writeTimcfg_off he hw hl hrole hrank, abandonSlot_of_not_over hover, State.fallTo]
    rw [hfall]
    have htim := fallTo_tim s (s.tim.switchedOff w).disabled
    obtain ⟨hclk, hsync⟩ := clockPins_of_not_driving (s := s.fallTo (s.tim.switchedOff w).disabled)
      (by rw [htim]; exact (by decide : TimState.off ≠ .driving))
    obtain ⟨hraised, hevents, hpeers⟩ := fallTo_switch s (s.tim.switchedOff w).disabled
    refine ⟨htim, hclk, hsync, fallTo_pulls s _, fallTo_hold, ?_, hraised, hevents, hpeers, fun hst => fallTo_aborts hst rfl,
      fun hst hidle => ?_⟩
    · have h := congrArg State.cmd (fall_frame s.tim.st.aborts { dropSlot s with tim := (s.tim.switchedOff w).disabled })
      exact h
    · have haborts : s.tim.st.aborts = false := by rcases hst with h | h | h <;> rw [h] <;> rfl
      have hidle' : (dropSlot s).map.commit ≠ .pending := not_pending_of_idle hidle
      rw [State.fallTo, haborts, fall_quiet, if_neg hidle']
      rfl

end Sys2Proof.Machine
end

section
/-! PROOFS. Sync pulses (spec 02, R24 to R30) and rising edges of HWCLK (R3, R18, R28): what each leaves of the timing unit, of the
slot in progress, of the channels and of the flags. -/

namespace Sys2Proof.Machine

open Sys2Proof

/-! ## Events raised one at a time -/

theorem raisedOnly_nil {s t : State} (h : t.ev = s.ev) : raisedOnly [] s t := by
  refine ⟨by rw [h], fun x _ => ?_⟩
  simp [h]

theorem raisedOnly_raise {x : Source} {s t : State} (h : t.ev = (raise x s).ev) : raisedOnly [x] s t := by
  refine ⟨by rw [h]; rfl, fun y _ => ?_⟩
  rw [h]
  simp only [List.mem_singleton]
  exact latched_set s.ev.latched y x

theorem raisedWithin_raise {x : Source} {s t : State} (h : t.ev = (raise x s).ev) : raisedWithin [x] s t := by
  refine ⟨by rw [h]; rfl, fun y _ hy => ?_⟩
  rw [h]
  refine (latched_set s.ev.latched y x).trans ?_
  simp [List.mem_singleton.not.mp hy]

/-- What is raised in two stretches. -/
theorem raisedWithin_trans {xs ys : List Source} {s t u : State} (h : raisedWithin xs s t) (h' : raisedWithin ys t u) :
    raisedWithin (xs ++ ys) s u := by
  obtain ⟨hev, hflag⟩ := h
  obtain ⟨hev', hflag'⟩ := h'
  refine ⟨?_, fun x hx hn => ?_⟩
  · rw [hev', hev]
  · rw [List.mem_append, not_or] at hn
    exact (hflag' x hx hn.2).trans (hflag x hx hn.1)

/-- A flag beside those of a switch does not show in what a switch raises. -/
theorem switchEvents_raise {x : Source} {b : Bool} {s t : State} (hx : x ∉ switchSources) (h : switchEvents b (raise x s) t) :
    switchEvents b s t := by
  have hflag : ∀ y ∈ switchSources, y.conditional = false → (raise x s).isPending y = s.isPending y := fun y hy hc => by
    have hne : y ≠ x := fun e => hx (e ▸ hy)
    rw [isPending_eq_flag hc, isPending_eq_flag hc, flag_raise]
    simp [hne]
  obtain ⟨hcommit, hpeer⟩ := h
  refine ⟨?_, fun c => ?_⟩
  · rw [hcommit, hflag .commitDone (List.mem_cons_self ..) rfl]
  · rw [hpeer c, hflag (.peerChange c) (List.mem_cons_of_mem _ (List.mem_map_of_mem (mem_channels c))) rfl]
    rfl

/-! ## A frame begins at a pulse (R8, R73, R119) -/

/-- A channel as a frame that follows no frame boundary begins (R73, R119). -/
def Channel.fresh (x : Channel) : Channel := { x with rx := { x.rx with seen := false }, peer := { x.peer with mark := false } }

theorem freshFrame_chan (s : State) (c : Chan) : (freshFrame s).chan c = (s.chan c).fresh := by
  unfold freshFrame
  refine (takeAll_chan (fun _ => ()) (fun _ _ x => x.fresh) _ (fun _ _ => rfl) (fun c d t => ?_) channels channels_nodup s c).trans
    (if_pos (mem_channels c))
  rw [clearSeen, setRx_eq, setPeer_eq, setChan_setChan, chan_setChan_same, chan_setChan]
  rfl

theorem freshFrame_frame (s : State) : { freshFrame s with chans := s.chans } = s := by
  refine takeAll_eq (fun t : State => ({ t with chans := s.chans } : State)) (fun f hf t => ?_) s
  obtain ⟨c, -, rfl⟩ := List.mem_map.mp hf
  rfl

/-- Slot 0 as it begins at a sampled pulse (R8). -/
def State.sampledSlot (s : State) : Slot where
  number := 0
  entry := s.map.active.entry 0
  work := if (s.map.active.entry 0).mode = .tx then .unused else (s.map.active.entry 0).mode
  word := none
  bits := [s.dataSample]

theorem sampledSlot_work (s : State) : s.sampledSlot.work ≠ .tx := by
  unfold State.sampledSlot
  dsimp only
  split
  · decide
  · assumption

/-- A frame that begins at a pulse changes the slot and the channels alone. -/
theorem beginFrameAtPulse_eq (s : State) :
    beginFrameAtPulse s = { freshFrame s with slot := .inSlot s.sampledSlot } := by
  have hmap := (freshFrame_tim_map s).2
  have hsample := congrArg State.dataSample (freshFrame_frame s)
  unfold beginFrameAtPulse beginSampledSlot State.sampledSlot
  generalize freshFrame s = u at hmap hsample ⊢
  dsimp only at hsample ⊢
  rw [hmap, hsample]

theorem beginFrameAtPulse_chan (s : State) (c : Chan) : (beginFrameAtPulse s).chan c = (s.chan c).fresh := by
  have h := freshFrame_chan s c
  rw [beginFrameAtPulse_eq]
  generalize freshFrame s = u at h ⊢
  exact h

theorem beginFrameAtPulse_slot (s : State) : (beginFrameAtPulse s).slot = .inSlot s.sampledSlot := by rw [beginFrameAtPulse_eq]

/-- What is not read of the slot or the channels stays. -/
theorem beginFrameAtPulse_keeps {α : Type} (g : State → α)
    (hg : ∀ (t : State) (x : SlotPhase) (y : Vector Channel 8), g { t with slot := x, chans := y } = g t) (s : State) :
    g (beginFrameAtPulse s) = g s := by
  have h := freshFrame_frame s
  rw [beginFrameAtPulse_eq]
  generalize freshFrame s = u at h ⊢
  rw [← hg _ s.slot s.chans]
  have h' := congrArg (fun t : State => g { t with slot := s.slot }) h
  exact h'

theorem beginFrameAtPulse_tim (s : State) : (beginFrameAtPulse s).tim = s.tim :=
  beginFrameAtPulse_keeps State.tim (fun _ _ _ => rfl) s

theorem beginFrameAtPulse_ev (s : State) : (beginFrameAtPulse s).ev = s.ev :=
  beginFrameAtPulse_keeps State.ev (fun _ _ _ => rfl) s

theorem beginFrameAtPulse_ring (s : State) : (beginFrameAtPulse s).ring = s.ring :=
  beginFrameAtPulse_keeps State.ring (fun _ _ _ => rfl) s

/-! ## The pulse of the latest edge is taken (R18) -/

/-- The state with its pulse taken. -/
def State.pulseTaken (s : State) : State := { s with tim := { s.tim with pulse := false } }

/-- What a pulse brings in each timing state. -/
def State.pulseIn (s : State) : TimState → State
  | .off => s
  | .listen => pulseInListen s
  | .driving => pulseInDriving s
  | .search => pulseInSearch s
  | .locked => pulseInLocked s
  | .flywheel => pulseInFlywheel s

theorem exec_syncPulse {st : TimState} {s : State} (hs : s.resetn = true) (hp : s.tim.pulse = true) (hst : s.tim.st = st) :
    exec .syncPulse s = .next (s.pulseTaken.pulseIn st) := by
  have hexec : exec .syncPulse s = .next (syncPulseStep s) := congrArg _ (outOfReset_high _ hs)
  have hstep : syncPulseStep s = s.pulseTaken.pulseIn s.tim.st := if_pos hp
  rw [hexec, hstep, hst]

/-- Settles O19. -/
theorem pulseInListenAndSearch : Obligations.PulseInListenAndSearch := by
  unfold Obligations.PulseInListenAndSearch
  intro s hs hp
  have hexec : ∀ st, s.tim.st = st → exec .syncPulse s = .next (s.pulseTaken.pulseIn st) := fun _ => exec_syncPulse hs hp
  refine ⟨fun hst => ⟨_, hexec _ hst, ?_⟩, fun hst hnot => ?_, fun a hst ha hpos => ?_⟩
  · unfold State.pulseIn pulseInListen
    by_cases hr : s.tim.role = .master
    · have hr' : s.pulseTaken.tim.role = .master := hr
      rw [if_pos hr', if_pos hr]
      refine ⟨?_, raisedOnly_raise rfl, rfl⟩
      simp [State.pulseTaken, hr]
    · have hr' : ¬ s.pulseTaken.tim.role = .master := hr
      rw [if_neg hr', if_neg hr]
      refine ⟨?_, raisedOnly_nil rfl, rfl⟩
      simp [State.pulseTaken, hr]
  · rw [hexec _ hst, State.pulseIn, pulseInSearch, if_neg]
    · rfl
    · intro he
      obtain ⟨a, ha, hpos⟩ := Option.map_eq_some_iff.mp he
      exact hnot a ha hpos
  · have hfound : pulseInSearch s.pulseTaken = lockFound s.pulseTaken :=
      if_pos (Option.map_eq_some_iff.mpr ⟨a, ha, hpos⟩)
    refine ⟨_, hexec _ hst, ?_⟩
    rw [State.pulseIn, hfound, lockFound]
    refine ⟨beginFrameAtPulse_tim _, raisedOnly_raise (beginFrameAtPulse_ev _), beginFrameAtPulse_slot _,
      beginFrameAtPulse_chan _, ?_⟩
    exact beginFrameAtPulse_keeps
      (fun t : State => ({ t with tim := s.tim, ev := s.ev, slot := s.slot, chans := s.chans } : State)) (fun _ _ _ => rfl) _

/-! ## Pulses by where they stand (R18) -/

theorem frameEdges_eq (s : State) : s.frameEdges = 11 * s.map.active.slots := rfl

theorem frameEdges_pos (s : State) : 0 < s.frameEdges := Nat.mul_pos (by decide) (Bank.slots_pos _)

theorem onAlignment_iff {s : State} {a : Nat} (h : s.tim.align = some a) :
    s.onAlignment = true ↔ a ≤ s.tim.pos ∧ 11 * s.map.active.slots ∣ s.tim.pos - a := by
  rw [State.onAlignment, h, Bool.and_eq_true, decide_eq_true_eq, decide_eq_true_eq, ← Nat.dvd_iff_mod_eq_zero]
  rfl

theorem atExpected_iff {s : State} {a : Nat} (h : s.tim.align = some a) :
    s.atExpected = true ↔ s.tim.pos = a ∨ s.tim.pos = a + 11 * s.map.active.slots := by
  simp only [State.atExpected, h, Bool.or_eq_true, decide_eq_true_eq, Option.map_some, Option.some.injEq, frameEdges_eq]
  exact or_congr eq_comm eq_comm

theorem atCandidate_iff (s : State) :
    s.atCandidate = true ↔ ∃ p, s.tim.cand = some p ∧ p + 11 * s.map.active.slots = s.tim.pos := by
  simp only [State.atCandidate, decide_eq_true_eq, Option.map_eq_some_iff, frameEdges_eq]

theorem pulseInLocked_stray {s : State} (he : ¬ s.atExpected = true) (hc : ¬ s.atCandidate = true) :
    pulseInLocked s = strayPulse s := by rw [pulseInLocked, if_neg he, if_neg hc]

theorem pulseInLocked_realigns {s : State} (he : ¬ s.atExpected = true) (hc : s.atCandidate = true) :
    pulseInLocked s = realign s := by rw [pulseInLocked, if_neg he, if_pos hc]

theorem pulseInFlywheel_stray {s : State} (he : ¬ s.onAlignment = true) (hc : ¬ s.atCandidate = true) :
    pulseInFlywheel s = strayPulse s := by rw [pulseInFlywheel, if_neg he, if_neg hc]

theorem pulseInFlywheel_realigns {s : State} (he : ¬ s.onAlignment = true) (hc : s.atCandidate = true) :
    pulseInFlywheel s = realign s := by rw [pulseInFlywheel, if_neg he, if_pos hc]

theorem not_atCandidate {s : State} (h : ∀ p, s.tim.cand = some p → p + 11 * s.map.active.slots ≠ s.tim.pos) :
    ¬ s.atCandidate = true := fun hc => by
  obtain ⟨p, hp, hpos⟩ := (atCandidate_iff s).mp hc
  exact h p hp hpos

/-- The pulse that begins the frame in progress (R27). -/
theorem pulseInLocked_begins {s : State} (h : s.tim.align = some s.tim.pos) :
    pulseInLocked s = { s with tim := { s.tim with cand := none, bridge := false } } := by
  have hexpected : s.atExpected = true := (atExpected_iff h).mpr (.inl rfl)
  rw [pulseInLocked, if_pos hexpected, pulseExpected, if_pos h, Timing.keptLock, ← h]

/-- The pulse that ends a frame of which every slot has been worked (R27, R36; log entry 6). -/
theorem pulseInLocked_ends {s : State} {a : Nat} (h : s.tim.align = some a) (hpos : s.tim.pos = a + 11 * s.map.active.slots)
    (hslot : s.slot = .frameDone) :
    pulseInLocked s = beginSlotAtEdge { boundaryWork s with tim := (boundaryWork s).tim.keptLock } := by
  have hexpected : s.atExpected = true := (atExpected_iff h).mpr (.inr hpos)
  have hne : ¬ s.tim.align = some s.tim.pos := fun he => by
    have hlen := frameEdges_pos s
    rw [frameEdges_eq] at hlen
    rw [h, hpos] at he
    have := Option.some.inj he
    omega
  rw [pulseInLocked, if_pos hexpected, pulseExpected, if_neg hne, if_pos hslot]

/-- What is not read of what a boundary changes stays. -/
theorem boundaryWork_keeps {α : Type} (g : State → α)
    (hg : ∀ (s t : State), g (s.unbounded t) = g t) (s : State) : g (boundaryWork s) = g s := by
  rw [← hg s (boundaryWork s), boundaryWork_frame]

/-- Settles O20. -/
theorem pulseKeepsLockOrIsStray : Obligations.PulseKeepsLockOrIsStray := by
  unfold Obligations.PulseKeepsLockOrIsStray
  intro a s hs hp ha
  have hexec : ∀ st, s.tim.st = st → exec .syncPulse s = .next (s.pulseTaken.pulseIn st) := fun _ => exec_syncPulse hs hp
  have ha' : s.pulseTaken.tim.align = some a := ha
  refine ⟨fun hst h1 h2 hc => ?_, fun hst hpos => ?_, fun hst hpos hslot => ⟨_, hexec _ hst, ?_⟩, fun hst hn hc => ?_,
    fun hst hle hdvd => ⟨_, hexec _ hst, ?_⟩⟩
  · have he : ¬ s.pulseTaken.atExpected = true := fun he => ((atExpected_iff ha').mp he).elim h1 h2
    rw [hexec _ hst, State.pulseIn, pulseInLocked_stray he (not_atCandidate hc)]
    rfl
  · have hpos' : s.pulseTaken.tim.align = some s.pulseTaken.tim.pos := ha.trans (congrArg some hpos.symm)
    rw [hexec _ hst, State.pulseIn, pulseInLocked_begins hpos']
    rfl
  · rw [State.pulseIn, pulseInLocked_ends ha' hpos hslot]
    have htim := boundaryWork_tim s.pulseTaken
    have hmap := boundaryWork_map s.pulseTaken
    have hsample := boundaryWork_keeps State.dataSample (fun _ _ => rfl) s.pulseTaken
    have hframe := boundaryWork_frame s.pulseTaken
    generalize boundaryWork s.pulseTaken = u at htim hmap hsample hframe ⊢
    refine ⟨?_, hmap, ?_, ?_⟩
    · change u.tim.keptLock = _
      rw [htim]
      rfl
    · change SlotPhase.inSlot _ = _
      rw [show u.dataSample = s.dataSample from hsample]
      rfl
    · have h := congrArg (fun t : State => ({ t with tim := s.tim, slot := s.slot } : State)) hframe
      exact h
  · have he : ¬ s.pulseTaken.onAlignment = true := fun he => hn ((onAlignment_iff ha').mp he)
    rw [hexec _ hst, State.pulseIn, pulseInFlywheel_stray he (not_atCandidate hc)]
    rfl
  · have he : s.pulseTaken.onAlignment = true := (onAlignment_iff ha').mpr ⟨hle, hdvd⟩
    rw [State.pulseIn, pulseInFlywheel, if_pos he, relock]
    refine ⟨beginFrameAtPulse_tim _, ⟨_, beginFrameAtPulse_slot _, rfl, rfl, sampledSlot_work _⟩, beginFrameAtPulse_chan _, ?_⟩
    exact beginFrameAtPulse_keeps
      (fun t : State => ({ t with tim := s.tim, slot := s.slot, chans := s.chans } : State)) (fun _ _ _ => rfl) _

end Sys2Proof.Machine
end

section
/-! PROOFS. Sync pulses that end the alignment (spec 02, R25, R29), and rising edges of HWCLK (R3, R18, R28). -/

namespace Sys2Proof.Machine

open Sys2Proof

/-! ## A traffic abort that leaves a pending commit waiting (R37, R50) -/

theorem trafficAbort_keeps {α : Type} (g : State → α)
    (hg : ∀ (t : State) (x : Vector Channel 8) (r : Ring) (n : Nat), g { t with chans := x, ring := r, arb := n } = g t) (s : State) :
    g (trafficAbort s) = g s := by
  have h := trafficAbort_frame s
  generalize trafficAbort s = u at h ⊢
  rw [← hg u s.chans s.ring s.arb]
  have h' := congrArg g h
  exact h'

theorem trafficAbort_ringEnds (s : State) : ringEnds false s (trafficAbort s) := by
  refine ringEnds_of_messagesEnd (takeTogether_messagesEnd (fun f hf t => ?_) _ s) fun c => ?_
  · obtain ⟨c, -, rfl⟩ := List.mem_map.mp hf
    exact abortChan_messagesEnd c t
  · rw [trafficAbort_chan]
    exact reserves_closed _

theorem trafficAbort_peer (s : State) (c : Chan) : ((trafficAbort s).chan c).peer = (s.chan c).peer := by
  rw [trafficAbort_chan]; rfl

theorem trafficAbort_aborted (s : State) (c : Chan) : abortedChannel (s.chan c) ((trafficAbort s).chan c) := by
  rw [trafficAbort_chan]
  exact abortedChannel_aborted _ (s.chan c).peer

/-- The data-seen flag and the marks of the frame are not among what a traffic abort leaves (R119). -/
theorem abortedChannel_fresh {x y : Channel} (h : abortedChannel x y) : abortedChannel x y.fresh := by
  obtain ⟨hended, hidle, hrest⟩ := h
  refine ⟨fun hst => ?_, fun hst => ?_, hrest⟩
  · rw [Channel.fresh, hended hst]
    rfl
  · have h := hidle hst
    exact h

/-! ## The slot abandoned at the pulse's edge -/

/-- What is on HWDATA without a slot in progress (R1, R15). -/
theorem pullsData_of_no_slot {s : State} (h : ∀ x, s.slot ≠ .inSlot x) : s.pullsData = decide (s.dataHeld ≠ .released) := by
  have hpulls : s.slotPulls = false := by
    unfold State.slotPulls
    split
    · next x hx => exact absurd hx (h x)
    · rfl
    · rfl
  rw [State.pullsData, hpulls, Bool.or_false, DataHold.pulls_eq]

/-- What a fall leaves reads of the state before only what a change of timing unit, slot and flags leaves. -/
theorem fallen_of_leaving {s t : State} {u : Timing} {e : EventUnit} (hcnt : u.frameCnt = s.tim.frameCnt)
    (h : fallen { s with tim := u, slot := .idle, ev := e } t) : fallen s t := by
  obtain ⟨hslot, hmap, hring, hpeers, hseen, hframe⟩ := h
  have hended : ∀ c k, endedAs c k { s with tim := u, slot := .idle, ev := e } = endedAs c k s := by
    intro c k
    simp only [endedAs, hcnt]
    rfl
  simp only [ringEnds, hended] at hring
  have hrest := congrArg (fun t : State => ({ t with tim := s.tim, slot := s.slot, ev := s.ev } : State)) hframe
  exact ⟨hslot, hmap, hring, hpeers, hseen, hrest⟩

/-- The timing unit realigned to the pulse (R29). -/
def Timing.realigned (t : Timing) : Timing :=
  { t with st := .locked, align := some t.pos, cand := none, bridge := false, flyCnt := 0, loss := .slip }

/-- The timing unit after a conflict (R25). -/
def Timing.conflicted (t : Timing) : Timing :=
  { t with st := .search, align := some t.pos, cand := none, bridge := false, holdoffCnt := 0, yielded := true, loss := .conflict }

/-- The state in which a slip issues its traffic abort. -/
def State.slipped (s : State) : State := raise .slip { s with tim := s.tim.realigned, slot := .idle }

/-- The state in which a conflict falls. -/
def State.conflicting (s : State) : State := raise .masterYielded { s with tim := s.tim.conflicted, slot := .idle }

theorem realign_eq (s : State) : realign s = beginFrameAtPulse (trafficAbort s.slipped) := rfl

theorem conflict_eq (s : State) : conflict s = fall true s.conflicting := rfl

theorem realign_chan (s : State) (c : Chan) : abortedChannel (s.chan c) ((realign s).chan c) ∧
    ((realign s).chan c).peer = { (s.chan c).peer with mark := false } ∧ ((realign s).chan c).rx.seen = false := by
  rw [realign_eq, beginFrameAtPulse_chan]
  refine ⟨abortedChannel_fresh (trafficAbort_aborted s.slipped c), ?_, rfl⟩
  rw [Channel.fresh, trafficAbort_peer]
  rfl

theorem realign_ev (s : State) : (realign s).ev = (raise .slip s).ev := by
  rw [realign_eq, beginFrameAtPulse_ev]
  exact trafficAbort_keeps State.ev (fun _ _ _ _ => rfl) _

theorem realign_tim (s : State) : (realign s).tim = s.tim.realigned := by
  rw [realign_eq, beginFrameAtPulse_tim]
  exact trafficAbort_keeps State.tim (fun _ _ _ _ => rfl) _

theorem realign_ringEnds (s : State) : ringEnds false s (realign s) := by
  have h := trafficAbort_ringEnds s.slipped
  have hring := beginFrameAtPulse_ring (trafficAbort s.slipped)
  unfold ringEnds at h ⊢
  rw [realign_eq, hring]
  exact h

theorem realign_slot (s : State) : (realign s).slot = .inSlot s.sampledSlot := by
  have hslot := trafficAbort_keeps State.sampledSlot (fun _ _ _ _ => rfl) s.slipped
  rw [realign_eq, beginFrameAtPulse_slot, hslot]
  rfl

theorem realign_frame (s : State) :
    { realign s with tim := s.tim, slot := s.slot, chans := s.chans, ring := s.ring, ev := s.ev, arb := s.arb } = s := by
  rw [realign_eq]
  refine (beginFrameAtPulse_keeps (fun t : State => ({ t with
    tim := s.tim, slot := s.slot, chans := s.chans, ring := s.ring, ev := s.ev, arb := s.arb } : State)) (fun _ _ _ => rfl) _).trans ?_
  exact trafficAbort_keeps (fun t : State => ({ t with
    tim := s.tim, slot := s.slot, chans := s.chans, ring := s.ring, ev := s.ev, arb := s.arb } : State)) (fun _ _ _ _ => rfl) _

theorem fall_cmd (aborts : Bool) (s : State) : (fall aborts s).cmd = s.cmd := by
  have h := congrArg State.cmd (fall_frame aborts s); exact h

/-- A latched source that has been raised is pending after the fall that follows (R160). -/
theorem fall_raise_pending {x : Source} (hx : x.conditional = false) (aborts : Bool) (s : State) :
    (fall aborts (raise x s)).isPending x = true := by
  rw [isPending_eq_flag hx, fall_flag, flag_raise]
  simp

/-- Settles O21. -/
theorem pulseThatEndsTheAlignment : Obligations.PulseThatEndsTheAlignment := by
  unfold Obligations.PulseThatEndsTheAlignment
  refine ⟨fun a p s hs hp ha hcand hpos hor => ?_, fun a s hs hp hst ha => ⟨fun hon => ?_, fun hoff => ?_⟩⟩
  · have hcand' : s.pulseTaken.atCandidate = true := (atCandidate_iff s.pulseTaken).mpr ⟨p, hcand, hpos⟩
    have ha' : s.pulseTaken.tim.align = some a := ha
    have hexec : exec .syncPulse s = .next (realign s.pulseTaken) := by
      rcases hor with ⟨hst, h1, h2⟩ | ⟨hst, hn⟩
      · have he : ¬ s.pulseTaken.atExpected = true := fun he => ((atExpected_iff ha').mp he).elim h1 h2
        rw [exec_syncPulse hs hp hst, State.pulseIn, pulseInLocked_realigns he hcand']
      · have he : ¬ s.pulseTaken.onAlignment = true := fun he => hn ((onAlignment_iff ha').mp he)
        rw [exec_syncPulse hs hp hst, State.pulseIn, pulseInFlywheel_realigns he hcand']
    have htim := realign_tim s.pulseTaken
    have hev := realign_ev s.pulseTaken
    have hring := realign_ringEnds s.pulseTaken
    have hslot := realign_slot s.pulseTaken
    have hchan := realign_chan s.pulseTaken
    have hframe := congrArg (fun t : State => ({ t with tim := s.tim } : State)) (realign_frame s.pulseTaken)
    generalize realign s.pulseTaken = t at hexec htim hev hring hslot hchan hframe
    refine ⟨t, hexec, htim, ?_, raisedWithin_raise hev, hring, hframe,
      ⟨_, hslot, rfl, rfl, rfl, sampledSlot_work s.pulseTaken⟩, hchan⟩
    rw [isPending_eq_flag rfl, State.flag, hev]
    exact (flag_raise .slip .slip s).trans (by simp)
  · rw [exec_syncPulse hs hp hst, State.pulseIn, pulseInDriving, if_pos ((onAlignment_iff (s := s.pulseTaken) ha).mpr hon)]
    rfl
  · have he : ¬ s.pulseTaken.onAlignment = true := fun he => hoff ((onAlignment_iff (s := s.pulseTaken) ha).mp he)
    have hexec : exec .syncPulse s = .next (conflict s.pulseTaken) := by
      rw [exec_syncPulse hs hp hst, State.pulseIn, pulseInDriving, if_neg he]
    refine ⟨_, hexec, ?_⟩
    rw [conflict_eq]
    have htim := fall_tim true s.pulseTaken.conflicting
    obtain ⟨hclk, hsync⟩ := clockPins_of_not_driving (s := fall true s.pulseTaken.conflicting)
      (by rw [htim]; exact (by decide : TimState.search ≠ .driving))
    refine ⟨htim, fall_raise_pending rfl true _, ?_, ?_, fall_cmd true _, hclk, hsync, ?_, ?_, fun c => ?_⟩
    · exact raisedWithin_trans (xs := [.masterYielded]) (t := s.pulseTaken.conflicting) (raisedWithin_raise rfl)
        (fall_raisedWithin true _)
    · exact switchEvents_raise (s := { s.pulseTaken with tim := s.pulseTaken.tim.conflicted, slot := .idle }) (by decide)
        (fall_switchEvents true s.pulseTaken.conflicting)
    · refine (pullsData_of_no_slot fun x => ?_).trans ?_
      · rw [fall_slot]
        exact fun h => by cases h
      · rw [fall_dataHeld]
        rfl
    · exact fallen_of_leaving (s := s) (u := s.pulseTaken.tim.conflicted) (e := s.pulseTaken.conflicting.ev) rfl
        (fall_fallen (s := s.pulseTaken.conflicting) rfl)
    · exact fall_abortedChannel s.pulseTaken.conflicting c

/-! ## Rising edges of HWCLK (R3, R8, R18, R28) -/

theorem exec_risingEdge (sync data : Bool) {s : State} (h : s.resetn = true) :
    exec (.hwclkRisingEdge sync data) s = .next (risingEdge sync data s) := congrArg _ (outOfReset_high _ h)

/-- A result that is due comes first: the edge does the same after it (R15). -/
theorem risingEdge_settled (sync data : Bool) (s : State) : risingEdge sync data (settleSlot s) = risingEdge sync data s := by
  rw [risingEdge, settleSlot_of_not_over (settleSlot_over s), settleSlot_tim, risingEdge]

/-- The state in which the slot engine takes an edge before which no result is due. -/
def State.edged (s : State) (sync data : Bool) : State :=
  { s with tim := s.tim.edge sync, dataSample := data, hwclkLow := false, dataHeld := .released }

theorem risingEdge_not_over (sync data : Bool) {s : State} (h : s.slotOver = false) :
    risingEdge sync data s = slotEdge data (s.edged sync data) := by
  rw [risingEdge, settleSlot_of_not_over h, State.edged]

/-- An edge at the slot engine changes the slot alone. -/
theorem slotEdge_slot (data : Bool) (s : State) : ∃ x, slotEdge data s = { s with slot := x } := by
  unfold slotEdge
  split
  · dsimp only
    split
    · unfold advanceSlot
      split
      · exact ⟨_, rfl⟩
      · exact ⟨_, rfl⟩
    · exact ⟨_, rfl⟩
  · exact ⟨s.slot, rfl⟩
  · exact ⟨s.slot, rfl⟩

theorem slotEdge_no_slot {data : Bool} {s : State} (h : ∀ x, s.slot ≠ .inSlot x) : slotEdge data s = s := by
  unfold slotEdge
  split
  · next x hx => exact absurd hx (h x)
  · rfl
  · rfl

/-- A slot that the sample does not end takes it. -/
theorem slotEdge_samples {data : Bool} {s : State} {x : Slot} (h : s.slot = .inSlot x) (hlen : x.bits.length < 11)
    (hor : x.work ≠ .unused ∨ x.bits.length < 10) : (slotEdge data s).slot = .inSlot { x with bits := x.bits ++ [data] } := by
  have hsampled : x.sampled data = { x with bits := x.bits ++ [data] } := if_pos hlen
  have hends : ¬ ((x.sampled data).work = .unused && decide ((x.sampled data).bits.length = 11)) = true := by
    rw [hsampled, Bool.and_eq_true, decide_eq_true_eq, decide_eq_true_eq, List.length_append, List.length_singleton]
    rintro ⟨hw, hl⟩
    rcases hor with hor | hor
    · exact hor hw
    · omega
  rw [slotEdge, h]
  dsimp only
  rw [if_neg hends, hsampled]

/-- An UNUSED slot ends with its eleventh bit (R8, R9). -/
theorem slotEdge_ends {data : Bool} {s : State} {x : Slot} (h : s.slot = .inSlot x) (hlen : x.bits.length = 10)
    (hw : x.work = .unused) : slotEdge data s = advanceSlot x.number s := by
  have hsampled : x.sampled data = { x with bits := x.bits ++ [data] } := if_pos (by omega)
  have hends : ((x.sampled data).work = .unused && decide ((x.sampled data).bits.length = 11)) = true := by
    rw [hsampled, Bool.and_eq_true, decide_eq_true_eq, decide_eq_true_eq, List.length_append, List.length_singleton]
    exact ⟨hw, by omega⟩
  rw [slotEdge, h]
  dsimp only
  rw [if_pos hends, hsampled]

/-- The slot that begins as R9 gives. -/
def State.entrySlot (s : State) (k : Nat) : Slot where
  number := k
  entry := s.map.active.entry k
  work := (s.map.active.entry k).mode
  word := none
  bits := []

theorem advanceSlot_slot (k : Nat) (s : State) :
    (advanceSlot k s).slot = if k + 1 < s.map.active.slots then .inSlot (s.entrySlot (k + 1)) else .frameDone := by
  unfold advanceSlot
  split <;> rfl

/-- Settles O22. -/
theorem risingEdgeCountsAndSamples : Obligations.RisingEdgeCountsAndSamples := by
  unfold Obligations.RisingEdgeCountsAndSamples
  refine ⟨fun sync data s hs => ?_, fun sync data s hs hover => ⟨_, exec_risingEdge sync data hs, ?_⟩, fun s => ⟨?_, ?_, ?_, ?_⟩⟩
  · refine resultFirst_of_settled hs ?_
    rw [exec_risingEdge sync data hs, exec_risingEdge sync data (by rwa [settleSlot_resetn]), risingEdge_settled]
  · rw [risingEdge_not_over sync data hover]
    obtain ⟨y, hy⟩ := slotEdge_slot data (s.edged sync data)
    refine ⟨?_, ?_, ?_, ?_, ?_, fun h => ?_, fun x hx hlen hor => ?_, fun x hx hlen hw => ?_⟩
    · rw [hy]
      change s.tim.edge sync = _
      unfold Timing.edge
      split <;> rfl
    · rw [hy]; rfl
    · rw [hy]; rfl
    · rw [hy]; rfl
    · rw [hy]; rfl
    · rw [slotEdge_no_slot (s := s.edged sync data) h]; rfl
    · exact slotEdge_samples (s := s.edged sync data) hx hlen hor
    · rw [slotEdge_ends (s := s.edged sync data) hx hlen hw, advanceSlot_slot]
      rfl
  · exact clockPins_of_not_driving
  · intro hst
    simp [State.hwclkPin, State.hwsyncPin, State.drivesClock, hst]
  · exact pullsData_of_no_slot
  · by_cases hst : s.tim.st = .driving
    · simp only [State.bitBegun, State.hwclkPin, State.drivesClock, hst, decide_true, if_true, ← decide_not, Nat.not_le]
    · simp [State.bitBegun, State.hwclkPin, State.drivesClock, hst]

end Sys2Proof.Machine
end

section
/-! PROOFS. The moments of the timing unit at an end of a local frame period, each by itself (spec 02, R23, R28, R30 to R34). -/

namespace Sys2Proof.Machine

open Sys2Proof

/-! ## LISTEN_WINDOW and HOLDOFF_LIMIT (R23, R31) -/

/-- The timing unit as the part begins to drive (R23). -/
def Timing.driven (t : Timing) : Timing := { t with st := .driving, listenCnt := 0, align := some (t.pos + 1) }

/-- The event of a part that begins to drive (R23). -/
def Timing.drivingEvent (t : Timing) : Source := if t.role = .master then .masterActive else .tookOver

/-- The local frame period that starts with what is in force (R17). -/
def State.periodStart (s : State) : Generator where
  div := s.tim.refdiv
  ref := 0
  len := s.map.active.slots
  bit := 0

theorem freshFrame_eq (s : State) : ∃ v, freshFrame s = { s with chans := v } ∧
    ∀ c, ({ s with chans := v } : State).chan c = (s.chan c).fresh := by
  have h := freshFrame_frame s
  have hchan := freshFrame_chan s
  generalize freshFrame s = u at h hchan
  have heq : u = { s with chans := u.chans } := by
    have h' := congrArg (fun t : State => ({ t with chans := u.chans } : State)) h; exact h'
  exact ⟨u.chans, heq, fun c => (congrArg (State.chan · c) heq).symm.trans (hchan c)⟩

/-- All that a part changes as it begins to drive. -/
theorem enterDriving_eq (s : State) : ∃ v, enterDriving s =
      { s with tim := s.tim.driven, gen := s.periodStart, ev := (raise s.tim.drivingEvent s).ev, slot := .inSlot (s.entrySlot 0),
               chans := v, dataHeld := .released } ∧
    ∀ c, ({ s with chans := v } : State).chan c = (s.chan c).fresh := by
  obtain ⟨v, hv, hchan⟩ := freshFrame_eq (raise s.tim.drivingEvent { s with tim := s.tim.driven, dataHeld := .released })
  refine ⟨v, ?_, hchan⟩
  change startPeriod (beginSlot 0 (freshFrame (raise s.tim.drivingEvent { s with tim := s.tim.driven, dataHeld := .released }))) = _
  rw [hv]
  rfl

theorem exec_listenWindow {s : State} (h : s.resetn = true) : exec .listenWindow s =
    .next (if decide (s.tim.st = .listen) && decide (2 ≤ s.tim.listenCnt + 1) then listenStep s else s) :=
  congrArg _ (outOfReset_high _ h)

theorem exec_holdoffLimit {s : State} (h : s.resetn = true) : exec .holdoffLimit s =
    .next (if s.tim.holdoffRuns && decide (s.tim.holdoffLimit ≤ s.tim.holdoffCnt + 1) then holdoffStep s else s) :=
  congrArg _ (outOfReset_high _ h)

theorem holdoffRuns_iff (t : Timing) : t.holdoffRuns = true ↔ t.st = .search ∧ t.role = .standby ∧ t.lineUp = true := by
  simp only [Timing.holdoffRuns, Bool.and_eq_true, decide_eq_true_eq, and_assoc]

/-- Settles O25. -/
theorem listenAndHoldoffLimits : Obligations.ListenAndHoldoffLimits := by
  unfold Obligations.ListenAndHoldoffLimits
  intro s hs
  rw [exec_listenWindow hs, exec_holdoffLimit hs]
  refine ⟨fun hst hcnt => ?_, fun hst hrole hup hcnt => ?_, fun h => ?_, fun h => ?_⟩
  · have hdrives : (if decide (s.tim.st = .listen) && decide (2 ≤ s.tim.listenCnt + 1) then listenStep s else s) = enterDriving s := by
      rw [if_pos (by simp [hst, hcnt]), listenStep, if_pos (by omega)]
    obtain ⟨v, hv, hchan⟩ := enterDriving_eq s
    refine ⟨_, rfl, ?_⟩
    rw [hdrives, hv]
    refine ⟨rfl, raisedOnly_raise rfl, rfl, rfl, rfl, rfl, fun hdiv => ?_, hchan, rfl⟩
    have hhalf : ¬ (s.tim.refdiv + 1) / 2 ≤ 0 := by omega
    exact congrArg some (decide_eq_false hhalf)
  · have hruns : s.tim.holdoffRuns = true := (holdoffRuns_iff _).mpr ⟨hst, hrole, hup⟩
    have hlimit : s.tim.holdoffLimit ≤ s.tim.holdoffCnt + 1 := hcnt.ge
    rw [hruns, decide_eq_true hlimit, Bool.and_self, if_pos rfl, holdoffStep, if_pos hlimit]
    rfl
  · refine congrArg _ (if_neg ?_)
    rw [Bool.and_eq_true, decide_eq_true_eq, decide_eq_true_eq]
    rintro ⟨hst, hcnt⟩
    exact h.elim (fun hne => hne hst) (by omega)
  · refine congrArg _ (if_neg ?_)
    rw [Bool.and_eq_true, decide_eq_true_eq, holdoffRuns_iff, Timing.holdoffLimit]
    rintro ⟨⟨hst, hrole, hup⟩, hcnt⟩
    rcases h with h | h | h | h
    · exact h hst
    · exact h hrole
    · exact Bool.false_ne_true (h.symm.trans hup)
    · omega

/-! ## DEBOUNCE_COMPLETE (R31, R32, R34) -/

/-- The timing unit after a debounced change of the line (R31, R32, R34). -/
def Timing.lineTurned (t : Timing) (up : Bool) : Timing :=
  { t with lineUp := up, debounce := 0, holdoffCnt := 0, deferred := t.deferred && up,
           loss := if t.deferred && !up then .line else t.loss }

theorem lineChange_eq (up : Bool) (s : State) :
    lineChange up s = raise (if up then .lineUp else .lineDown) { s with tim := s.tim.lineTurned up } := by
  unfold lineChange Timing.lineTurned
  cases up with
  | true => simp
  | false =>
    cases hd : s.tim.deferred with
    | true => simp
    | false => simp [hd]

/-- The sample that brings the debounce counter to 8 changes the line (R32). -/
theorem sampleLine_changes {sense : Bool} {s : State} (h : sense ≠ s.tim.lineUp) (hd : 8 ≤ s.tim.debounce + 1) :
    sampleLine sense s = raise (if sense then .lineUp else .lineDown) { s with tim := s.tim.lineTurned sense } := by
  rw [sampleLine, if_neg h, if_pos hd, lineChange_eq]

/-- Settles O27. -/
theorem debounceChangesTheLine : Obligations.DebounceChangesTheLine := by
  unfold Obligations.DebounceChangesTheLine
  intro s hs hd
  have hexec : exec .debounceComplete s = .next (if 8 ≤ s.tim.debounce + 1
      then sampleLine (!s.tim.lineUp) { s with hwsense := !s.tim.lineUp } else s) := congrArg _ (outOfReset_high _ hs)
  have hsample := sampleLine_changes (sense := !s.tim.lineUp) (s := { s with hwsense := !s.tim.lineUp })
    (Bool.not_ne_self _) (hd ▸ by decide)
  rw [if_pos (by omega), hsample] at hexec
  refine ⟨_, hexec, ?_, rfl, ?_, rfl⟩
  · cases s.tim.lineUp <;> exact raisedOnly_raise rfl
  · change s.tim.lineTurned (!s.tim.lineUp) = _
    unfold Timing.lineTurned
    rw [Bool.not_not]

/-! ## FLYWHEEL_EXPIRY (R30, R33) -/

/-- The timing unit as a flywheel expires, its loss not yet settled (R30). -/
def Timing.expired (t : Timing) : Timing :=
  { t with st := .search, align := none, holdoffCnt := 0, cand := none, bridge := false, flyCnt := 0 }

/-- The timing unit with its loss settled by the line (R33). -/
def Timing.lossSettled (t : Timing) : Timing :=
  if !t.lineUp then { t with loss := .line } else if t.debounce = 0 then { t with loss := .sync } else { t with deferred := true }

/-- The line is UP with no debounce running, so that SYNC_LOST is raised (R33). -/
def Timing.lossRaised (t : Timing) : Bool := t.lineUp && decide (t.debounce = 0)

theorem settleLoss_eq (s : State) : settleLoss s =
    { s with tim := s.tim.lossSettled, ev := if s.tim.lossRaised then (raise .syncLost s).ev else s.ev } := by
  unfold settleLoss Timing.lossSettled
  by_cases hdown : (!s.tim.lineUp) = true
  · have hr : ¬ s.tim.lossRaised = true := by simpa [Timing.lossRaised] using fun h => absurd h (by simpa using hdown)
    rw [if_pos hdown, if_pos hdown, if_neg hr]
  · by_cases hd : s.tim.debounce = 0
    · have hr : s.tim.lossRaised = true := by simpa [Timing.lossRaised, hd] using hdown
      rw [if_neg hdown, if_neg hdown, if_pos hd, if_pos hd, if_pos hr]
      rfl
    · have hr : ¬ s.tim.lossRaised = true := by simp [Timing.lossRaised, hd]
      rw [if_neg hdown, if_neg hdown, if_neg hd, if_neg hd, if_neg hr]

/-- The state in which an expired flywheel falls. -/
def State.expiring (s : State) : State :=
  { s with tim := s.tim.expired.lossSettled, slot := .idle
           ev := if s.tim.lossRaised then (raise .syncLost s).ev else s.ev }

theorem expireFlywheel_eq (s : State) : expireFlywheel s = fall true s.expiring :=
  congrArg (fall true) (settleLoss_eq { s with tim := s.tim.expired, slot := .idle })

theorem expiring_flag (s : State) (x : Source) :
    s.expiring.flag x = (s.flag x || (decide (x = .syncLost) && s.tim.lossRaised)) := by
  unfold State.expiring
  cases s.tim.lossRaised with
  | false => simp [State.flag]
  | true =>
    rw [Bool.and_true]
    exact flag_raise x .syncLost s

theorem expiring_raisedWithin (s : State) : raisedWithin [.syncLost] s s.expiring := by
  refine ⟨?_, fun x _ hx => ?_⟩
  · unfold State.expiring
    cases s.tim.lossRaised <;> rfl
  · have h := expiring_flag s x
    rw [decide_eq_false (List.mem_singleton.not.mp hx), Bool.false_and, Bool.or_false] at h
    exact h

/-- What a flywheel that expires leaves of the flags (R33, R49, R74). -/
theorem expireFlywheel_flag (s : State) (x : Source) : (expireFlywheel s).flag x =
    (s.flag x || (decide (x = .syncLost) && s.tim.lossRaised) || (decide (s.map.commit = .pending) && s.switchRaises x)) := by
  rw [expireFlywheel_eq, fall_flag, expiring_flag]
  have hraises : s.expiring.switchRaises x = s.switchRaises x := by cases x <;> rfl
  rw [hraises]
  rfl

theorem expireFlywheel_switchEvents (s : State) : switchEvents (decide (s.map.commit = .pending)) s (expireFlywheel s) := by
  refine ⟨?_, fun c => ?_⟩
  · rw [isPending_eq_flag rfl, isPending_eq_flag rfl, expireFlywheel_flag]
    simp [State.switchRaises]
  · rw [isPending_eq_flag rfl, isPending_eq_flag rfl, expireFlywheel_flag]
    simp [State.switchRaises, Bool.and_assoc]

theorem expireFlywheel_syncLost (s : State) :
    (expireFlywheel s).isPending .syncLost = (s.isPending .syncLost || s.tim.lossRaised) := by
  rw [isPending_eq_flag rfl, isPending_eq_flag rfl, expireFlywheel_flag]
  simp [State.switchRaises]

theorem expireFlywheel_tim (s : State) : (expireFlywheel s).tim = s.tim.expired.lossSettled := by
  rw [expireFlywheel_eq, fall_tim]; rfl

theorem expireFlywheel_pulls (s : State) : (expireFlywheel s).pullsData = decide (s.dataHeld ≠ .released) := by
  rw [expireFlywheel_eq]
  refine (pullsData_of_no_slot fun x => ?_).trans ?_
  · rw [fall_slot]
    exact fun h => by cases h
  · rw [fall_dataHeld]
    rfl

theorem expireFlywheel_fallen (s : State) : fallen s (expireFlywheel s) := by
  rw [expireFlywheel_eq]
  refine fallen_of_leaving (s := s) (u := s.tim.expired.lossSettled) (e := s.expiring.ev) ?_ (fall_fallen (s := s.expiring) rfl)
  unfold Timing.lossSettled
  split
  · rfl
  · split <;> rfl

theorem expireFlywheel_aborted (s : State) (c : Chan) : abortedChannel (s.chan c) ((expireFlywheel s).chan c) := by
  rw [expireFlywheel_eq]
  exact fall_abortedChannel s.expiring c

/-! ## CLOCK_LOST (R28) -/

/-- The state in which a lost clock issues its traffic abort, where no result is due. -/
def State.unclocked (s : State) : State :=
  { s with tim := { s.tim with st := .flywheel, flyCnt := 1, bridge := false }, slot := .idle, dataHeld := s.holdLeft }

theorem loseClock_settled (s : State) : loseClock (settleSlot s) = loseClock s := by
  rw [loseClock, abandonSlot_settleSlot, loseClock]

theorem loseClock_not_over {s : State} (h : s.slotOver = false) : loseClock s = trafficAbort s.unclocked := by
  rw [loseClock, abandonSlot_of_not_over h]
  rfl

theorem exec_clockLost {s : State} (h : s.resetn = true) :
    exec .clockLost s = .next (if decide (s.tim.st = .locked) && !s.tim.edgeMark then clockWatch s else s) :=
  congrArg _ (outOfReset_high _ h)

theorem exec_clockLost_due {s : State} (h : s.resetn = true) (hst : s.tim.st = .locked) (he : s.tim.edgeMark = false) :
    exec .clockLost s = .next (loseClock s) := by
  rw [exec_clockLost h, if_pos (by simp [hst, he]), clockWatch, he, if_neg Bool.false_ne_true]

theorem trafficAbort_idle_seen {s : State} {c : Chan} (h : (s.chan c).rx.st = .idle) :
    ((trafficAbort s).chan c).rx.seen = (s.chan c).rx.seen := by
  rw [trafficAbort_chan]
  exact congrArg RxUnit.seen (closed_of_idle h)

theorem exec_flywheelExpiry {s : State} (h : s.resetn = true) : exec .flywheelExpiry s =
    .next (if decide (s.tim.st = .flywheel) && decide (s.tim.limit ≤ s.tim.flyCnt) then flywheelStep s else s) :=
  congrArg _ (outOfReset_high _ h)

/-- Settles O26. -/
theorem flywheelExpiryAndClockLoss : Obligations.FlywheelExpiryAndClockLoss := by
  unfold Obligations.FlywheelExpiryAndClockLoss
  refine ⟨fun s hs hst hlimit => ⟨expireFlywheel s, ?_, ?_⟩, fun s hs hst he => ?_, fun s hs hst he hover => ?_,
    fun s hs => ⟨fun h => ?_, fun h => ?_⟩⟩
  · rw [exec_flywheelExpiry hs, if_pos (by simp [hst, hlimit]), flywheelStep, if_neg (Nat.not_lt.mpr hlimit)]
  · have hlost := expireFlywheel_syncLost s
    have htim := expireFlywheel_tim s
    refine ⟨fun hup => ?_, fun hup hd => ?_, fun hup hd => ?_, ?_, expireFlywheel_switchEvents s, ?_, expireFlywheel_pulls s,
      expireFlywheel_fallen s, expireFlywheel_aborted s⟩
    · rw [htim, hlost]
      simp [Timing.lossRaised, Timing.lossSettled, Timing.expired, hup]
    · rw [htim, hlost]
      simp [Timing.lossRaised, Timing.lossSettled, Timing.expired, hup, hd]
    · rw [htim, hlost]
      simp [Timing.lossRaised, Timing.lossSettled, Timing.expired, hup, hd]
    · rw [expireFlywheel_eq]
      exact raisedWithin_trans (xs := [.syncLost]) (expiring_raisedWithin s) (fall_raisedWithin true s.expiring)
    · rw [expireFlywheel_eq, fall_cmd]
      rfl
  · refine resultFirst_of_settled hs ?_
    have htim := settleSlot_tim s
    rw [exec_clockLost_due hs hst he,
      exec_clockLost_due (by rwa [settleSlot_resetn]) (by rwa [htim]) (by rwa [htim]), loseClock_settled]
  · have hheld := trafficAbort_keeps State.dataHeld (fun _ _ _ _ => rfl) s.unclocked
    have hslot := trafficAbort_keeps State.slot (fun _ _ _ _ => rfl) s.unclocked
    have hpulls : (trafficAbort s.unclocked).pullsData = (dropSlot s).pullsData := pullsData_congr hheld hslot
    refine ⟨_, exec_clockLost_due hs hst he, ?_⟩
    rw [loseClock_not_over hover]
    refine ⟨?_, fun hrel hp => ?_, trafficAbort_keeps State.tim (fun _ _ _ _ => rfl) s.unclocked, hslot, ?_, ?_, fun c => ⟨?_, ?_, fun h => ?_⟩⟩
    · rw [hpulls, dropSlot_pulls, DataHold.pulls_eq]
    · have h := dropSlot_hold hrel (hpulls.symm.trans hp)
      rw [if_neg (by rw [hst]; decide)] at h
      exact hheld.trans h
    · have h := trafficAbort_ringEnds s.unclocked
      unfold ringEnds at h ⊢
      exact h
    · exact trafficAbort_keeps (fun t : State => ({ t with
        tim := s.tim, slot := s.slot, chans := s.chans, ring := s.ring, arb := s.arb, dataHeld := s.dataHeld } : State))
        (fun _ _ _ _ => rfl) s.unclocked
    · exact trafficAbort_aborted s.unclocked c
    · exact trafficAbort_peer s.unclocked c
    · exact trafficAbort_idle_seen (s := s.unclocked) h
  · rw [exec_flywheelExpiry hs, if_neg]
    rw [Bool.and_eq_true, decide_eq_true_eq, decide_eq_true_eq]
    rintro ⟨hst, hcnt⟩
    exact h.elim (fun hne => hne hst) (by omega)
  · rw [exec_clockLost hs, if_neg]
    rw [Bool.and_eq_true, decide_eq_true_eq, Bool.not_eq_true']
    rintro ⟨hst, he⟩
    exact h.elim (fun hne => hne hst) fun hm => Bool.false_ne_true (he.symm.trans hm)

end Sys2Proof.Machine
end

section
/-! PROOFS. An end of a local frame period (spec 02, R17): the sample of the line, the step of the timing state after it, and the new
local frame period. -/

namespace Sys2Proof.Machine

open Sys2Proof

/-! ## What the delivery of a slot's result does not touch (R11, R13) -/

/-- A reading of the state that sees neither what the working of a slot changes nor the sources it can raise. -/
structure SlotBlind {α : Type} (g : State → α) : Prop where
  slot : ∀ (t : State) (x : SlotPhase), g { t with slot := x } = g t
  chans : ∀ (t : State) (v : Vector Channel 8), g { t with chans := v } = g t
  blocks : ∀ (t : State) (p : Pool), g { t with pool := p } = g t
  ring : ∀ (t : State) (r : Ring), g { t with ring := r } = g t
  arb : ∀ (t : State) (n : Nat), g { t with arb := n } = g t
  dropped : ∀ (c : Chan) (d : DropReason) (t : State), g (raiseDropped c d t) = g t
  shutdown : ∀ (c : Chan) (t : State), g (raise (.txShutdown c) t) = g t
  starved : ∀ (c : Chan) (t : State), g (raise (.rxStarved c) t) = g t

theorem ite_reads {α : Type} {g : State → α} {p : Prop} [Decidable p] {s t u : State} (ht : g t = g s) (hu : g u = g s) :
    g (if p then t else u) = g s := by
  split
  · exact ht
  · exact hu

section

variable {α : Type} {g : State → α} (hg : SlotBlind g)
include hg

theorem SlotBlind.setChan (c : Chan) (x : Channel) (s : State) : g (s.setChan c x) = g s := hg.chans s _

/-- What changes the pool and the channels alone. -/
theorem SlotBlind.of_frame {s u : State} (h : { u with pool := s.pool, chans := s.chans } = s) : g u = g s := by
  have h' := congrArg g h
  exact ((hg.blocks u s.pool).symm.trans (hg.chans _ s.chans).symm).trans h'

theorem SlotBlind.reportDrop (c : Chan) (d : DropReason) (s : State) : g (reportDrop c d s) = g s :=
  (hg.dropped ..).trans (hg.setChan c _ s)

theorem SlotBlind.matchedEcho (c : Chan) (f : TxFlight) (s : State) : g (matchedEcho c f s) = g s := by
  unfold Machine.matchedEcho
  split
  · exact ite_reads ((hg.reportDrop ..).trans (hg.setChan c _ s)) (hg.setChan c _ s)
  · exact hg.setChan c _ s

theorem SlotBlind.collide (c : Chan) (f : TxFlight) (s : State) : g (collide c f s) = g s := by
  refine ite_reads ?_ (hg.setChan c _ s)
  exact (hg.shutdown ..).trans ((hg.setChan ..).trans (hg.setChan c _ s))

theorem SlotBlind.outstandingTest (c : Chan) (reenabled : Bool) (s : State) : g (outstandingTest c reenabled s) = g s :=
  ite_reads (ite_reads ((hg.setChan ..).trans (hg.arb s _)) (hg.setChan c _ s)) rfl

theorem SlotBlind.txEcho (c : Chan) (ok : Bool) (s : State) : g (txEcho c ok s) = g s := by
  unfold Machine.txEcho
  split
  · rfl
  · rw [hg.outstandingTest]
    exact ite_reads ((hg.matchedEcho ..).trans (hg.setChan c _ s))
      (ite_reads ((hg.collide ..).trans (hg.setChan c _ s)) ((hg.setChan ..).trans (hg.setChan c _ s)))

theorem SlotBlind.advanceSlot (k : Nat) (s : State) : g (advanceSlot k s) = g s := ite_reads (hg.slot s _) (hg.slot s _)

theorem SlotBlind.echoStep (s : State) : g (echoStep s) = g s := by
  unfold Machine.echoStep
  split
  · split
    · exact ite_reads ((hg.advanceSlot ..).trans ((hg.setChan ..).trans (hg.txEcho ..))) rfl
    · rfl
  · rfl
  · rfl

theorem SlotBlind.closeMsg (c : Chan) (cause : MsgStatus) (s : State) : g (closeMsg c cause s) = g s := by
  rw [closeMsg_joined]
  exact (hg.setChan ..).trans (hg.ring s _)

theorem SlotBlind.freeChain (c : Chan) (first : Option BlockNo) (s : State) : g (freeChain c first s) = g s :=
  hg.of_frame (freeChain_frame c first s)

theorem SlotBlind.discardMsg (c : Chan) (s : State) : g (discardMsg c s) = g s := by
  refine ite_reads ?_ (ite_reads (hg.setChan c _ s) rfl)
  exact (hg.setChan ..).trans ((hg.ring ..).trans (hg.freeChain ..))

theorem SlotBlind.overrunMsg (c : Chan) (s : State) : g (overrunMsg c s) = g s := (hg.setChan ..).trans (hg.freeChain ..)

theorem SlotBlind.putByte (c : Chan) (k : BlockNo) (b : Byte) (s : State) : g (putByte c k b s) = g s :=
  (hg.setChan ..).trans (hg.blocks s _)

theorem SlotBlind.storeByte (c : Chan) (b : Byte) (s : State) : g (storeByte c b s) = g s := by
  unfold Machine.storeByte
  dsimp only
  refine ite_reads (hg.setChan c _ s) ?_
  split
  · exact hg.putByte ..
  · split
    · exact hg.overrunMsg ..
    · exact ite_reads ((hg.putByte ..).trans (hg.of_frame (grant_frame ..))) (hg.overrunMsg ..)

theorem SlotBlind.beginMsg (c : Chan) (b : Byte) (s : State) : g (beginMsg c b s) = g s := by
  refine ite_reads ((hg.storeByte ..).trans ((hg.setChan ..).trans (hg.ring s _))) ?_
  exact (hg.starved ..).trans ((hg.setChan ..).trans (hg.setChan c _ s))

theorem SlotBlind.takeByte (c : Chan) (b : Byte) (s : State) : g (takeByte c b s) = g s := by
  unfold Machine.takeByte
  split
  · exact hg.beginMsg ..
  · exact hg.storeByte ..
  all_goals rfl

theorem SlotBlind.takeMessageWord (c : Chan) (b : Byte) (last : Bool) (s : State) : g (takeMessageWord c b last s) = g s := by
  have htake := (hg.takeByte c b (s.setRx c { (s.chan c).rx with seen := true })).trans (hg.setChan c _ s)
  exact ite_reads (ite_reads ((hg.closeMsg ..).trans htake) htake) rfl

theorem SlotBlind.deliver (c : Chan) (k : RxClass) (s : State) : g (deliver c k s) = g s := by
  have hmark := hg.setChan c { s.chan c with peer := { (s.chan c).peer with mark := true } } s
  cases k with
  | silent => rfl
  | idle => exact hmark
  | corrupt => exact (ite_reads (ite_reads (hg.setChan ..) (hg.setChan ..)) rfl).trans hmark
  | data b => exact (hg.takeMessageWord ..).trans hmark
  | last b => exact (hg.takeMessageWord ..).trans hmark
  | abort => exact (ite_reads (hg.discardMsg ..) rfl).trans hmark
  | pause => exact (ite_reads (hg.setChan ..) rfl).trans hmark
  | resume => exact (ite_reads (hg.setChan ..) rfl).trans hmark
  | unknownCtrl => exact (hg.setChan ..).trans hmark

theorem SlotBlind.rxWordStep (s : State) : g (rxWordStep s) = g s := by
  unfold Machine.rxWordStep
  split
  · exact ite_reads ((hg.advanceSlot ..).trans (hg.deliver ..)) rfl
  · rfl
  · rfl

theorem SlotBlind.settleSlot (s : State) : g (settleSlot s) = g s := (hg.rxWordStep ..).trans (hg.echoStep s)

end

/-! ## What a step of the timing state leaves of the line, its flags and the loss -/

/-- The line and what watches it. -/
def State.sensed (s : State) : (Bool × Nat × Bool × Nat) × Bool × Bool :=
  ((s.tim.lineUp, s.tim.debounce, s.hwsense, s.tim.refdiv), s.flag .lineUp, s.flag .lineDown)

/-- With the loss. -/
def State.judged (s : State) : ((Bool × Nat × Bool × Nat) × Bool × Bool) × Bool × LossCause := (s.sensed, s.tim.deferred, s.tim.loss)

/-- With the holdoff. -/
def State.resting (s : State) : (((Bool × Nat × Bool × Nat) × Bool × Bool) × Bool × LossCause) × Nat := (s.judged, s.tim.holdoffCnt)

/-- The raise of another source does not show. -/
theorem resting_raise {x : Source} (hu : x ≠ .lineUp) (hd : x ≠ .lineDown) (s : State) : (raise x s).resting = s.resting := by
  simp only [State.resting, State.judged, State.sensed, flag_raise, decide_eq_false hu.symm, decide_eq_false hd.symm, Bool.or_false]
  rfl

theorem slotBlind_resting : SlotBlind State.resting where
  slot _ _ := rfl
  chans _ _ := rfl
  blocks _ _ := rfl
  ring _ _ := rfl
  arb _ _ := rfl
  dropped c _ s := resting_raise (x := .txDropped c) (by simp) (by simp) s
  shutdown _ s := resting_raise (by simp) (by simp) s
  starved _ s := resting_raise (by simp) (by simp) s

theorem loseClock_resting (s : State) : (loseClock s).resting = s.resting :=
  (trafficAbort_keeps State.resting (fun _ _ _ _ => rfl) _).trans (slotBlind_resting.settleSlot s)

theorem boundaryActs_resting (worked : Bank) (f : State → State) (hf : f ∈ boundaryActs worked) (s : State) :
    (f s).resting = s.resting := by
  unfold boundaryActs at hf
  simp only [List.mem_append, List.mem_map, List.mem_singleton] at hf
  rcases hf with (rfl | ⟨c, -, rfl⟩) | ⟨c, -, rfl⟩
  · exact ite_reads rfl rfl
  · rw [gapStep_eq]; rfl
  · unfold peerStep
    dsimp only
    exact ite_reads (ite_reads rfl (resting_raise (by simp) (by simp) _)) rfl

theorem switchBanks_resting (s : State) : (switchBanks s).resting = s.resting := by
  have htim := switchBanks_tim s
  have hsense := congrArg State.hwsense (switchBanks_frame s)
  have hup := switchBanks_flag s .lineUp
  have hdown := switchBanks_flag s .lineDown
  simp only [State.switchRaises, Bool.or_false] at hup hdown
  generalize switchBanks s = u at htim hsense hup hdown ⊢
  simp only [State.resting, State.judged, State.sensed, htim, hup, hdown]
  exact congrArg (fun b => ((((_, _, b, _), _, _), _, _), _)) hsense

theorem timed_resting (s : State) : s.timed.resting = s.resting := by
  refine takeAll_eq State.resting (fun f hf t => ?_) s
  rcases List.mem_append.mp hf with hf | hf
  · obtain ⟨c, -, rfl⟩ := List.mem_map.mp hf
    rw [refreshStep_eq]; rfl
  · obtain ⟨c, -, rfl⟩ := List.mem_map.mp hf
    unfold holdStep
    dsimp only
    exact ite_reads (ite_reads (resting_raise (by simp) (by simp) _) rfl) rfl

theorem boundaryWork_resting (s : State) : (boundaryWork s).resting = s.resting :=
  (boundary_keeps State.resting (fun _ => rfl) boundaryActs_resting switchBanks_resting (fun _ => rfl) s).trans (timed_resting s)

theorem frameBoundaryStep_resting (pulse : Bool) (s : State) : (frameBoundaryStep pulse s).resting = s.resting := by
  have hwork := boundaryWork_resting s
  unfold frameBoundaryStep
  refine ite_reads ?_ rfl
  generalize boundaryWork s = u at hwork ⊢
  split
  · exact hwork
  · have hlocked : (lockedBoundary pulse u).resting = u.resting := by
      unfold lockedBoundary
      exact ite_reads rfl (ite_reads rfl rfl)
    exact hlocked.trans hwork
  all_goals rfl

theorem drivingEvent_ne (t : Timing) : t.drivingEvent ≠ .lineUp ∧ t.drivingEvent ≠ .lineDown := by
  unfold Timing.drivingEvent
  split <;> simp

theorem enterDriving_resting (s : State) : (enterDriving s).resting = s.resting := by
  obtain ⟨v, hv, -⟩ := enterDriving_eq s
  obtain ⟨hup, hdown⟩ := drivingEvent_ne s.tim
  rw [hv]
  exact (resting_raise hup hdown s)

theorem expireFlywheel_sensed (s : State) : (expireFlywheel s).sensed = s.sensed := by
  have htim := expireFlywheel_tim s
  have hup := expireFlywheel_flag s .lineUp
  have hdown := expireFlywheel_flag s .lineDown
  have hframe := (expireFlywheel_fallen s).2.2.2.2.2
  have hsense := congrArg State.hwsense hframe
  simp only [State.switchRaises, reduceCtorEq, decide_false, Bool.false_and, Bool.and_false, Bool.or_false] at hup hdown
  generalize expireFlywheel s = u at htim hup hdown hsense ⊢
  have hline : s.tim.expired.lossSettled.lineUp = s.tim.lineUp ∧ s.tim.expired.lossSettled.debounce = s.tim.debounce ∧
      s.tim.expired.lossSettled.refdiv = s.tim.refdiv := by
    unfold Timing.lossSettled
    split
    · exact ⟨rfl, rfl, rfl⟩
    · split <;> exact ⟨rfl, rfl, rfl⟩
  obtain ⟨hlineUp, hdebounce, hrefdiv⟩ := hline
  simp only [State.sensed, htim, hup, hdown, hlineUp, hdebounce, hrefdiv]
  exact congrArg (fun b => ((_, _, b, _), _, _)) hsense

/-! ## The step of each timing state -/

theorem listenStep_resting (s : State) : (listenStep s).resting = s.resting := ite_reads (enterDriving_resting s) rfl

theorem clockWatch_resting (s : State) : (clockWatch s).resting = s.resting := ite_reads rfl (loseClock_resting s)

theorem holdoffStep_judged (s : State) : (holdoffStep s).judged = s.judged := ite_reads rfl rfl

theorem holdoffOrLine_judged (reaches : Bool) (s : State) : (holdoffOrLine reaches s).judged = s.judged := by
  refine ite_reads ?_ (ite_reads (holdoffStep_judged s) rfl)
  exact ite_reads (g := State.judged) rfl rfl

theorem flywheelStep_sensed (s : State) : (flywheelStep s).sensed = s.sensed := ite_reads rfl (expireFlywheel_sensed s)

/-- The step of a state other than FLYWHEEL leaves the line, its flags and the loss. -/
theorem periodStep_judged {t : Timing} (h : t.st ≠ .flywheel) (s : State) : (periodStep t s).judged = s.judged := by
  unfold periodStep
  split
  · rfl
  · exact congrArg Prod.fst (listenStep_resting s)
  · exact ite_reads (holdoffOrLine_judged _ s) rfl
  · next hst => exact absurd hst h
  · exact congrArg Prod.fst (clockWatch_resting s)
  · exact congrArg Prod.fst (frameBoundaryStep_resting false s)

theorem periodStep_sensed (t : Timing) (s : State) : (periodStep t s).sensed = s.sensed := by
  by_cases h : t.st = .flywheel
  · unfold periodStep
    rw [h]
    exact flywheelStep_sensed s
  · exact congrArg Prod.fst (periodStep_judged h s)

theorem expireFlywheel_holdoff (s : State) : (expireFlywheel s).tim.holdoffCnt = 0 := by
  rw [expireFlywheel_tim]
  unfold Timing.lossSettled
  split
  · rfl
  · split <;> rfl

/-- The holdoff stays at 0 where it does not run (R31). -/
theorem periodStep_holdoff {t : Timing} {s : State} (h : s.tim.holdoffCnt = 0) (hr : t.holdoffRuns = true → s.tim.lineUp = false) :
    (periodStep t s).tim.holdoffCnt = 0 := by
  have hkeep : ∀ u : State, u.resting = s.resting → u.tim.holdoffCnt = 0 := fun u hu => (congrArg Prod.snd hu).trans h
  unfold periodStep
  split
  · exact h
  · exact hkeep _ (listenStep_resting s)
  · split
    · next hruns =>
      unfold holdoffOrLine holdoffWithLine
      rw [hr hruns, Bool.not_false, Bool.true_and]
      split
      · dsimp only
        split
        · rfl
        · exact h
      · exact h
    · exact h
  · unfold flywheelStep
    split
    · exact h
    · exact expireFlywheel_holdoff s
  · exact hkeep _ (clockWatch_resting s)
  · exact hkeep _ (frameBoundaryStep_resting false s)

end Sys2Proof.Machine
end

section
/-! PROOFS. An end of a local frame period, put together (spec 02, R17): the counter of each state below its limit, the state it moves
to at its limit, and the pull left on HWDATA (spec 01, R15). -/

namespace Sys2Proof.Machine

open Sys2Proof

/-! ## The sample of the line -/

/-- A sample that resolves a deferred loss as a loss of the sync (R34). -/
def Timing.lossResolved (t : Timing) (sense : Bool) : Bool := t.deferred && t.lineUp && sense

/-- The timing unit after a sample that does not change the line (R32, R34). -/
def Timing.lineSampled (t : Timing) (sense : Bool) : Timing :=
  { t with debounce := if sense = t.lineUp then 0 else t.debounce + 1
           deferred := t.deferred && !t.lossResolved sense
           loss := if t.lossResolved sense then .sync else t.loss }

/-- The state after the sample of an end at which the line does not change. -/
def State.lineSampled (s : State) (sense : Bool) : State :=
  { s with tim := s.tim.lineSampled sense, ev := if s.tim.lossResolved sense then (raise .syncLost s).ev else s.ev }

theorem sampleLine_steady {sense : Bool} {s : State} (h : sense = s.tim.lineUp ∨ s.tim.debounce < 7) :
    sampleLine sense s = s.lineSampled sense := by
  unfold State.lineSampled Timing.lineSampled
  by_cases heq : sense = s.tim.lineUp
  · rw [sampleLine, if_pos heq, lineSteady]
    by_cases hres : s.tim.lossResolved sense = true
    · have hdef : (s.tim.deferred && s.tim.lineUp) = true := by
        simp only [Timing.lossResolved, Bool.and_eq_true] at hres ⊢
        exact hres.1
      rw [if_pos hdef, if_pos heq, if_pos hres, hres, if_pos rfl, Bool.not_true, Bool.and_false]
      rfl
    · have hdef : ¬ (s.tim.deferred && s.tim.lineUp) = true := by
        simpa [Timing.lossResolved, heq] using hres
      rw [if_neg hdef, if_pos heq, if_neg hres, if_neg hres, Bool.not_eq_true _ |>.mp hres, Bool.not_false, Bool.and_true]
  · have hres : s.tim.lossResolved sense = false := by
      unfold Timing.lossResolved
      cases hs : sense <;> cases hl : s.tim.lineUp <;> simp_all
    have hlow : ¬ 8 ≤ s.tim.debounce + 1 := by have := h.resolve_left heq; omega
    rw [sampleLine, if_neg heq, if_neg hlow, if_neg heq, hres, Bool.not_false, Bool.and_true, if_neg Bool.false_ne_true,
      if_neg Bool.false_ne_true]

/-! ## Below every limit -/

/-- The counters of the timing unit u after the step of the unit t, at an end at which no limit is reached (R23, R30, R31). -/
def Timing.counted (t u : Timing) : Timing :=
  { u with listenCnt := if t.st = .listen then u.listenCnt + 1 else u.listenCnt
           holdoffCnt := if t.holdoffRuns && u.lineUp then u.holdoffCnt + 1 else u.holdoffCnt
           flyCnt := if t.st = .flywheel then u.flyCnt + 1 else u.flyCnt }

/-- The step of the unit t, taken in the state s, reaches no limit. -/
structure Timing.below (t : Timing) (s : State) : Prop where
  driving : t.st ≠ .driving
  listen : t.st = .listen → s.tim.listenCnt = 0
  search : t.holdoffRuns = true → t.holdoffCnt + 1 < t.holdoffLimit ∧ (s.tim.lineUp = true → s.tim.holdoffCnt + 1 < s.tim.holdoffLimit)
  flywheel : t.st = .flywheel → s.tim.flyCnt < s.tim.limit
  locked : t.st = .locked → s.tim.edgeMark = true

theorem holdoffRuns_eq_false {t : Timing} (h : t.st ≠ .search) : t.holdoffRuns = false := by
  rw [← Bool.not_eq_true, holdoffRuns_iff]
  exact fun hr => h hr.1

theorem periodStep_below {t : Timing} {s : State} (h : t.below s) : periodStep t s = { s with tim := t.counted s.tim } := by
  unfold periodStep Timing.counted
  cases hst : t.st with
  | driving => exact absurd hst h.driving
  | off => simp [holdoffRuns_eq_false, hst]
  | listen =>
    have hcnt := h.listen hst
    simp [holdoffRuns_eq_false, hst, listenStep, hcnt]
  | locked =>
    have hwatch : clockWatch s = s := if_pos (h.locked hst)
    simp [holdoffRuns_eq_false, hst, hwatch]
  | flywheel => simp [holdoffRuns_eq_false, hst, flywheelStep, h.flywheel hst]
  | search =>
    by_cases hruns : t.holdoffRuns = true
    · obtain ⟨hbelow, hbelow'⟩ := h.search hruns
      have hnot : ¬ t.holdoffLimit ≤ t.holdoffCnt + 1 := Nat.not_le.mpr hbelow
      by_cases hup : s.tim.lineUp = true
      · have hnot' : ¬ s.tim.holdoffLimit ≤ s.tim.holdoffCnt + 1 := Nat.not_le.mpr (hbelow' hup)
        simp [hruns, holdoffOrLine, holdoffWithLine, hnot, hup, holdoffStep, hnot']
      · have hstay : holdoffOrLine (decide (t.holdoffLimit ≤ t.holdoffCnt + 1)) s = s := by
          simp [holdoffOrLine, holdoffWithLine, hnot, hup]
        have hcount : (t.holdoffRuns && s.tim.lineUp) = false := by simp [hup]
        rw [hcount]
        simp [hruns, hstay]
    · simp [hruns]

/-! ## At a limit -/

theorem loseClock_tim (s : State) : (loseClock s).tim = { s.tim with st := .flywheel, flyCnt := 1, bridge := false } := by
  rw [← abandonSlot_tim s]
  exact trafficAbort_keeps State.tim (fun _ _ _ _ => rfl) (enterFlywheel (abandonSlot s))

/-- The pull left as the clock is lost is as it was, or one for a bit period of HWCLK (R15). -/
theorem loseClock_held {s : State} (h : s.tim.st ≠ .driving) :
    (loseClock s).dataHeld = s.dataHeld ∨ (loseClock s).dataHeld = .toLineBit false := by
  have hkeeps : (loseClock s).dataHeld = (settleSlot s).holdLeft :=
    trafficAbort_keeps State.dataHeld (fun _ _ _ _ => rfl) (enterFlywheel (abandonSlot s))
  have htim := settleSlot_tim s
  have hheld : (settleSlot s).dataHeld = s.dataHeld := by
    have h' := congrArg State.dataHeld (settleSlot_unworked s s); exact h'
  have hclock : (settleSlot s).drivesClock = false := by rw [State.drivesClock, htim]; exact decide_eq_false h
  rw [hkeeps, State.holdLeft, hclock, if_neg Bool.false_ne_true, hheld]
  split
  · exact .inr rfl
  · exact .inl rfl

theorem frameBoundaryStep_held (pulse : Bool) (s : State) : (frameBoundaryStep pulse s).dataHeld = s.dataHeld := by
  have hwork := boundaryWork_keeps State.dataHeld (fun _ _ => rfl) s
  unfold frameBoundaryStep
  refine ite_reads ?_ rfl
  generalize boundaryWork s = u at hwork ⊢
  split
  · exact hwork
  · have hlocked : (lockedBoundary pulse u).dataHeld = u.dataHeld := by
      unfold lockedBoundary
      exact ite_reads rfl (ite_reads rfl rfl)
    exact hlocked.trans hwork
  all_goals rfl

/-- The pull on HWDATA over the step of a timing state (R15). -/
theorem periodStep_held {t : Timing} {s : State} (hlocked : t.st = .locked → s.tim.st ≠ .driving) :
    (periodStep t s).dataHeld = s.dataHeld ∨
    ((periodStep t s).dataHeld = .released ∧ (periodStep t s).tim.st = .driving) ∨
    (t.st = .locked ∧ s.tim.edgeMark = false ∧ (periodStep t s).dataHeld = .toLineBit false) := by
  unfold periodStep
  split
  · exact .inl rfl
  · unfold listenStep
    split
    · obtain ⟨v, hv, -⟩ := enterDriving_eq s
      rw [hv]
      exact .inr (.inl ⟨rfl, rfl⟩)
    · exact .inl rfl
  · refine .inl (ite_reads ?_ rfl)
    exact ite_reads (ite_reads rfl rfl) (ite_reads (ite_reads rfl rfl) rfl)
  · refine .inl (ite_reads rfl ?_)
    rw [expireFlywheel_eq, fall_dataHeld]
    rfl
  · next hst =>
    unfold clockWatch
    split
    · exact .inl rfl
    · next he =>
      refine (loseClock_held (hlocked hst)).imp id fun h => .inr ⟨hst, Bool.not_eq_true _ |>.mp he, h⟩
  · exact .inl (frameBoundaryStep_held false s)

/-- HWDATA after an end of a local frame period (R15; log entry 25). -/
theorem periodEnd_held {t : Timing} {s : State} {h : DataHold} (hh : s.dataHeld = h) (hlocked : t.st = .locked → s.tim.st ≠ .driving) :
    (h ≠ .toLineBit false → (t.st = .locked → s.tim.edgeMark = true) → (newPeriod (periodStep t s)).dataHeld = .released) ∧
    (h = .toLineBit false → (newPeriod (periodStep t s)).tim.st ≠ .driving →
      (newPeriod (periodStep t s)).dataHeld = .toLineBit true) := by
  have hcases := periodStep_held hlocked
  rw [hh] at hcases
  have hnew : (newPeriod (periodStep t s)).dataHeld = (periodStep t s).dataHeld.atPeriodEnd := rfl
  have hst : (newPeriod (periodStep t s)).tim.st = (periodStep t s).tim.st := rfl
  rw [hnew, hst]
  refine ⟨fun hne hedge => ?_, fun heq hnd => ?_⟩
  · rcases hcases with hkept | ⟨hrel, -⟩ | ⟨hl, he, -⟩
    · rw [hkept]
      cases h with
      | released => rfl
      | toLocalBit => rfl
      | toLineBit ended =>
        cases ended with
        | true => rfl
        | false => exact absurd rfl hne
    · rw [hrel]; rfl
    · exact absurd ((hedge hl).symm.trans he) (by decide)
  · rcases hcases with hkept | ⟨-, hd⟩ | ⟨-, -, hleft⟩
    · rw [hkept, heq]; rfl
    · exact absurd hd hnd
    · rw [hleft]; rfl

/-- What a standby does whose holdoff reaches its limit with the line still UP (R31). -/
theorem periodStep_listens {t : Timing} {s : State} (hruns : t.holdoffRuns = true) (hup : s.tim.lineUp = true)
    (hlimit : s.tim.holdoffLimit ≤ s.tim.holdoffCnt + 1) : periodStep t s = enterListen s := by
  have hst := ((holdoffRuns_iff t).mp hruns).1
  simp [periodStep, hst, hruns, holdoffOrLine, holdoffWithLine, holdoffStep, hup, hlimit]

/-- At an end with the line going DOWN the holdoff that reaches its limit comes first or not (R39). -/
theorem periodStep_holdoff_or_line {t : Timing} {s : State} (hruns : t.holdoffRuns = true) (hs : s.tim.st = .search)
    (hdown : s.tim.lineUp = false) :
    (periodStep t s).tim.st = .search ∨ (periodStep t s).tim.st = .listen ∧ (periodStep t s).tim.listenCnt = 0 := by
  have hst := ((holdoffRuns_iff t).mp hruns).1
  simp only [periodStep, hst, hruns, if_true, holdoffOrLine, holdoffWithLine, hdown, Bool.not_false, Bool.true_and]
  split
  · split
    · exact .inr ⟨rfl, rfl⟩
    · exact .inl hs
  · exact .inl hs

theorem periodStep_drives {t : Timing} {s : State} (hst : t.st = .listen) (hcnt : 1 ≤ s.tim.listenCnt) :
    (periodStep t s).tim.st = .driving ∧ (periodStep t s).tim.listenCnt = 0 := by
  obtain ⟨v, hv, -⟩ := enterDriving_eq s
  have hstep : periodStep t s = enterDriving s := by
    rw [periodStep, hst]
    exact if_pos (by omega)
  rw [hstep, hv]
  exact ⟨rfl, rfl⟩

theorem periodStep_expires {t : Timing} {s : State} (hst : t.st = .flywheel) (hlimit : s.tim.limit ≤ s.tim.flyCnt) :
    periodStep t s = expireFlywheel s := by
  rw [periodStep, hst]
  exact if_neg (Nat.not_lt.mpr hlimit)

theorem periodStep_loses {t : Timing} {s : State} (hst : t.st = .locked) (he : s.tim.edgeMark = false) :
    periodStep t s = loseClock s := by
  rw [periodStep, hst]
  exact if_neg (by simp [he])

theorem lossSettled_st (t : Timing) : t.expired.lossSettled.st = .search ∧ t.expired.lossSettled.flyCnt = 0 ∧
    t.expired.lossSettled.align = none := by
  unfold Timing.lossSettled
  split
  · exact ⟨rfl, rfl, rfl⟩
  · split <;> exact ⟨rfl, rfl, rfl⟩

/-- In DRIVING a frame of which every slot has been worked ends, and any other goes on (R25; log entry 6). -/
theorem periodStep_driving {t : Timing} {s : State} (hst : t.st = .driving) (hs : s.tim.st = .driving) :
    (periodStep t s).tim.st = .driving ∧
    (s.slot ≠ .frameDone → (periodStep t s).tim.frameCnt = s.tim.frameCnt ∧ (periodStep t s).slot = s.slot) ∧
    (s.slot = .frameDone → (periodStep t s).tim.frameCnt = s.tim.frameCnt + 1 ∧
      ∃ x, (periodStep t s).slot = .inSlot x ∧ x.number = 0) := by
  have hstep : periodStep t s = frameBoundaryStep false s := by rw [periodStep, hst]
  rw [hstep, frameBoundaryStep]
  by_cases hslot : s.slot = .frameDone
  · have htim := boundaryWork_tim s
    rw [if_pos hslot, hs]
    generalize boundaryWork s = u at htim ⊢
    refine ⟨(congrArg Timing.st htim).trans hs, fun h => absurd hslot h, fun _ => ⟨congrArg Timing.frameCnt htim, _, rfl, rfl⟩⟩
  · rw [if_neg hslot]
    exact ⟨hs, fun _ => ⟨rfl, rfl⟩, fun h => absurd h hslot⟩
/-! ## The end of a local frame period -/

theorem newPeriod_eq (s : State) : newPeriod s =
    { s with tim := { s.tim with edgeMark := false }, dataHeld := s.dataHeld.atPeriodEnd, gen := s.periodStart } := rfl

theorem exec_localFramePeriodEnd {sense : Bool} {s v : State} (h : s.resetn = true)
    (hv : sampleLine sense { s with hwsense := sense } = v) :
    exec (.localFramePeriodEnd sense) s = .next (newPeriod (periodStep s.tim v)) := by
  rw [← hv]
  exact congrArg _ (outOfReset_high _ h)

/-- What every end of a local frame period leaves of the line, the edge mark and the generator (R17, R28, R32). -/
theorem newPeriod_periodStep_reads (t : Timing) (v : State) : let e := newPeriod (periodStep t v)
    e.tim.lineUp = v.tim.lineUp ∧ e.tim.debounce = v.tim.debounce ∧ e.tim.edgeMark = false ∧ e.hwsense = v.hwsense ∧
    e.gen = { div := v.tim.refdiv, ref := 0, len := e.map.active.slots, bit := 0 } ∧
    e.flag .lineUp = v.flag .lineUp ∧ e.flag .lineDown = v.flag .lineDown := by
  have h := periodStep_sensed t v
  rw [newPeriod_eq]
  generalize periodStep t v = u at h
  simp only [State.sensed, Prod.mk.injEq] at h
  obtain ⟨⟨hup, hdeb, hsense, hdiv⟩, hflagUp, hflagDown⟩ := h
  exact ⟨hup, hdeb, rfl, hsense, hdiv ▸ rfl, hflagUp, hflagDown⟩

/-- A unit below its limits after a sample that does not change the line. -/
theorem lineSampled_below {s : State} {sense : Bool} (hd : s.tim.st ≠ .driving) (hl : s.tim.st = .listen → s.tim.listenCnt = 0)
    (hs : s.tim.st = .search → s.tim.holdoffCnt + 1 < (s.tim.rank.val + 1) * 4)
    (hf : s.tim.st = .flywheel → s.tim.flyCnt < s.tim.limit) (he : s.tim.st = .locked → s.tim.edgeMark = true) :
    s.tim.below (s.lineSampled sense) where
  driving := hd
  listen := hl
  search hr := have h := hs ((holdoffRuns_iff _).mp hr).1; ⟨h, fun _ => h⟩
  flywheel := hf
  locked := he

theorem lineSampled_counted {t : Timing} (hl : t.st = .listen → t.listenCnt = 0) (sense : Bool) :
    { t.counted (t.lineSampled sense) with edgeMark := false } = { t with
      edgeMark := false
      debounce := if sense = t.lineUp then 0 else t.debounce + 1
      deferred := t.deferred && !t.lossResolved sense
      loss := if t.lossResolved sense then .sync else t.loss
      listenCnt := if t.st = .listen then 1 else t.listenCnt
      holdoffCnt := if t.st = .search ∧ t.role = .standby ∧ t.lineUp = true then t.holdoffCnt + 1 else t.holdoffCnt
      flyCnt := if t.st = .flywheel then t.flyCnt + 1 else t.flyCnt } := by
  have hlisten : (if t.st = .listen then t.listenCnt + 1 else t.listenCnt) = if t.st = .listen then 1 else t.listenCnt := by
    split
    · next h => rw [hl h]
    · rfl
  have hhold : (t.holdoffRuns && t.lineUp) = decide (t.st = .search ∧ t.role = .standby ∧ t.lineUp = true) := by
    rw [Bool.eq_iff_iff, Bool.and_eq_true, decide_eq_true_eq, holdoffRuns_iff]
    exact ⟨fun h => h.1, fun h => ⟨h, h.2.2⟩⟩
  simp only [Timing.counted, Timing.lineSampled, hlisten, hhold, decide_eq_true_eq]

theorem lineSampled_raisedOnly {s : State} {sense : Bool} {t : State} (h : t.ev = (s.lineSampled sense).ev) :
    raisedOnly (if s.tim.lossResolved sense then [.syncLost] else []) s t := by
  unfold State.lineSampled at h
  by_cases hr : s.tim.lossResolved sense = true
  · rw [if_pos hr]
    simp only [if_pos hr] at h
    exact raisedOnly_raise h
  · rw [if_neg hr]
    simp only [if_neg hr] at h
    exact raisedOnly_nil h

theorem atPeriodEnd_steady {h : DataHold} :
    h.atPeriodEnd = if h = .toLineBit false then .toLineBit true else .released := by
  cases h with
  | released => rfl
  | toLocalBit => rfl
  | toLineBit ended => cases ended <;> rfl

/-- The unit after a sample that changes the line, where the end reaches no limit (R30, R31, R32; log entry 13). -/
theorem lineTurned_counted {t : Timing} (hl : t.st = .listen → t.listenCnt = 0) :
    { t.counted (t.lineTurned !t.lineUp) with edgeMark := false } = { t with
      lineUp := !t.lineUp, debounce := 0, edgeMark := false, holdoffCnt := 0
      deferred := t.deferred && !t.lineUp
      loss := if t.deferred && !!t.lineUp then .line else t.loss
      listenCnt := if t.st = .listen then 1 else t.listenCnt
      flyCnt := if t.st = .flywheel then t.flyCnt + 1 else t.flyCnt } := by
  have hlisten : (if t.st = .listen then t.listenCnt + 1 else t.listenCnt) = if t.st = .listen then 1 else t.listenCnt := by
    split
    · next h => rw [hl h]
    · rfl
  have hhold : (t.holdoffRuns && !t.lineUp) = false := by
    cases hup : t.lineUp <;> simp [Timing.holdoffRuns, hup]
  simp only [Timing.counted, Timing.lineTurned, hlisten, hhold, Bool.false_eq_true, if_false]

/-- Below every limit, the line sampled without a change (R17, R28, R32). -/
theorem periodEnd_below {s : State} {sense : Bool} (hs : s.resetn = true) (hdeb : s.tim.debounce < 7)
    (hb : s.tim.below (s.lineSampled sense)) : exec (.localFramePeriodEnd sense) s = .next { s.lineSampled sense with
      hwsense := sense, tim := { s.tim.counted (s.tim.lineSampled sense) with edgeMark := false }
      dataHeld := s.dataHeld.atPeriodEnd, gen := s.periodStart } := by
  have hv := sampleLine_steady (sense := sense) (s := { s with hwsense := sense }) (.inr hdeb)
  have hb' : s.tim.below (State.lineSampled { s with hwsense := sense } sense) := ⟨hb.1, hb.2, hb.3, hb.4, hb.5⟩
  rw [exec_localFramePeriodEnd hs hv, periodStep_below hb']
  rfl

/-- At an end with the line sampled as it is, each timing state at its limit moves on (R23, R25, R28, R30, R31). -/
theorem periodEnd_at_limits {s v : State} (hv : v = s.lineSampled s.tim.lineUp) : let t := newPeriod (periodStep s.tim v)
    (s.tim.st = .listen → s.tim.listenCnt = 1 → t.tim.st = .driving ∧ t.tim.listenCnt = 0) ∧
    (s.tim.st = .search → s.tim.role = .standby → s.tim.lineUp = true → s.tim.holdoffCnt + 1 = (s.tim.rank.val + 1) * 4 →
      t.tim.st = .listen ∧ t.tim.holdoffCnt = 0) ∧
    (s.tim.st = .flywheel → s.tim.limit ≤ s.tim.flyCnt → t.tim.st = .search ∧ t.tim.flyCnt = 0 ∧ t.tim.align = none) ∧
    (s.tim.st = .locked → s.tim.edgeMark = false → t.tim.st = .flywheel ∧ t.tim.flyCnt = 1) ∧
    (s.tim.st = .driving → t.tim.st = .driving ∧
      (s.slot ≠ .frameDone → t.tim.frameCnt = s.tim.frameCnt ∧ t.slot = s.slot) ∧
      (s.slot = .frameDone → t.tim.frameCnt = s.tim.frameCnt + 1 ∧ ∃ x, t.slot = .inSlot x ∧ x.number = 0)) := by
  subst hv
  refine ⟨fun hst hcnt => periodStep_drives hst hcnt.ge, fun hst hrole hup hcnt => ?_, fun hst hlimit => ?_, fun hst he => ?_,
    fun hst => periodStep_driving hst hst⟩
  · have h := periodStep_listens (s := s.lineSampled s.tim.lineUp) ((holdoffRuns_iff _).mpr ⟨hst, hrole, hup⟩) hup hcnt.ge
    rw [h]
    exact ⟨rfl, rfl⟩
  · have h := periodStep_expires (s := s.lineSampled s.tim.lineUp) hst hlimit
    have htim := expireFlywheel_tim (s.lineSampled s.tim.lineUp)
    have hset := lossSettled_st (s.lineSampled s.tim.lineUp).tim
    rw [h, newPeriod_eq]
    generalize expireFlywheel (s.lineSampled s.tim.lineUp) = u at htim
    rw [← htim] at hset
    exact hset
  · have h := periodStep_loses (s := s.lineSampled s.tim.lineUp) hst he
    have htim := loseClock_tim (s.lineSampled s.tim.lineUp)
    rw [h, newPeriod_eq]
    generalize loseClock (s.lineSampled s.tim.lineUp) = u at htim
    exact ⟨congrArg Timing.st htim, congrArg Timing.flyCnt htim⟩

/-- A flywheel that expires at the end at which the line changes is settled by the new line (R33). -/
theorem periodEnd_expires_turned {s v : State} {up : Bool} (htim : v.tim = s.tim.lineTurned up)
    (hlost : v.isPending .syncLost = s.isPending .syncLost) (hst : s.tim.st = .flywheel) (hlimit : s.tim.limit ≤ s.tim.flyCnt) :
    let t := newPeriod (periodStep s.tim v)
    t.tim.st = .search ∧ t.tim.loss = (if up then .sync else .line) ∧
    t.isPending .syncLost = (s.isPending .syncLost || up) := by
  have hlimit' : v.tim.limit ≤ v.tim.flyCnt := by rw [htim]; exact hlimit
  have hexp := expireFlywheel_tim v
  have hflag := expireFlywheel_syncLost v
  have hsettled := (lossSettled_st v.tim).1
  rw [periodStep_expires hst hlimit', newPeriod_eq]
  generalize expireFlywheel v = u at hexp hflag
  rw [hlost, htim] at hflag
  rw [htim] at hexp hsettled
  refine ⟨(congrArg Timing.st hexp).trans hsettled, (congrArg Timing.loss hexp).trans ?_, hflag.trans ?_⟩
  · cases up <;> rfl
  · cases up <;> rfl

/-- A holdoff that reaches its limit at the end at which the line goes DOWN (R39). -/
theorem periodEnd_holdoff_turned {s v : State} (htim : v.tim = s.tim.lineTurned !s.tim.lineUp) (hst : s.tim.st = .search)
    (hrole : s.tim.role = .standby) (hup : s.tim.lineUp = true) : let t := newPeriod (periodStep s.tim v)
    t.tim.st = .search ∨ t.tim.st = .listen ∧ t.tim.listenCnt = 0 := by
  refine periodStep_holdoff_or_line ((holdoffRuns_iff _).mpr ⟨hst, hrole, hup⟩) ?_ ?_
  · rw [htim]; exact hst
  · rw [htim]; exact Bool.not_eq_false' .. |>.mpr hup

/-- The state of the end at which the line changes, after the sample (R32). -/
def State.turned (s : State) (up : Bool) : State :=
  raise (if up then .lineUp else .lineDown) { s with hwsense := up, tim := s.tim.lineTurned up }

theorem turned_flag (s : State) (up : Bool) (x : Source) :
    (s.turned up).flag x = (s.flag x || decide (x = if up then .lineUp else .lineDown)) := flag_raise x _ _

/-- At an end at which the line changes and no limit is reached (R32; log entry 13). -/
theorem periodEnd_turned_below {s : State} (hd : s.tim.st ≠ .driving) (hl : s.tim.st = .listen → s.tim.listenCnt = 0)
    (he : s.tim.st = .locked → s.tim.edgeMark = true) (hf : s.tim.st = .flywheel → s.tim.flyCnt < s.tim.limit)
    (hh : s.tim.st = .search → s.tim.role = .standby → s.tim.lineUp = true → s.tim.holdoffCnt + 1 < (s.tim.rank.val + 1) * 4) :
    newPeriod (periodStep s.tim (s.turned !s.tim.lineUp)) = { s.turned !s.tim.lineUp with
      tim := { s.tim.counted (s.tim.lineTurned !s.tim.lineUp) with edgeMark := false }
      dataHeld := s.dataHeld.atPeriodEnd, gen := s.periodStart } := by
  have hb : s.tim.below (s.turned !s.tim.lineUp) := by
    refine ⟨hd, hl, fun hr => ?_, hf, he⟩
    obtain ⟨hst, hrole, hup⟩ := (holdoffRuns_iff _).mp hr
    refine ⟨hh hst hrole hup, fun _ => ?_⟩
    change 0 + 1 < (s.tim.rank.val + 1) * 4
    omega
  rw [periodStep_below hb]
  rfl

/-- Settles O28: the sample of the line, then the step of the timing state the part was in, then the new local frame period. -/
theorem localPeriodEndSteps : Obligations.LocalPeriodEndSteps := by
  unfold Obligations.LocalPeriodEndSteps
  refine ⟨fun sense s hs hdeb hd hl hh hf he => ?_, fun s hs => ?_, fun s hs hdeb => ?_⟩
  · refine ⟨_, periodEnd_below hs hdeb (lineSampled_below hd hl hh hf he), lineSampled_counted hl sense,
      lineSampled_raisedOnly rfl, rfl, rfl, atPeriodEnd_steady, rfl⟩
  · have hv := sampleLine_steady (sense := s.tim.lineUp) (s := { s with hwsense := s.tim.lineUp }) (.inl rfl)
    obtain ⟨hup, hdeb, hedge, hsense, hgen, -, -⟩ :=
      newPeriod_periodStep_reads s.tim (State.lineSampled { s with hwsense := s.tim.lineUp } s.tim.lineUp)
    obtain ⟨hrel, hleft⟩ := periodEnd_held (t := s.tim)
      (s := State.lineSampled { s with hwsense := s.tim.lineUp } s.tim.lineUp) (h := s.dataHeld) rfl
      (fun hst => by change s.tim.st ≠ _; rw [hst]; decide)
    obtain ⟨hlisten, hsearch, hfly, hlock, hdrive⟩ := periodEnd_at_limits (s := { s with hwsense := s.tim.lineUp }) rfl
    refine ⟨_, exec_localFramePeriodEnd hs hv, hup, hdeb.trans (if_pos rfl), hedge, hsense, hgen, hrel, hleft, hlisten, hsearch, hfly,
      hlock, hdrive⟩
  · have hv : sampleLine (!s.tim.lineUp) { s with hwsense := !s.tim.lineUp } = s.turned !s.tim.lineUp :=
      sampleLine_changes (Bool.not_ne_self _) (hdeb ▸ by decide)
    obtain ⟨hup, hdeb', hedge, hsense, hgen, hflagUp, hflagDown⟩ := newPeriod_periodStep_reads s.tim (s.turned !s.tim.lineUp)
    obtain ⟨hrel, hleft⟩ := periodEnd_held (t := s.tim) (s := s.turned !s.tim.lineUp) (h := s.dataHeld) rfl
      (fun hst => by change s.tim.st ≠ _; rw [hst]; decide)
    refine ⟨_, exec_localFramePeriodEnd hs hv, hup, hdeb', hedge, hsense, ?_, ?_, hgen, hrel, hleft, fun hst => ?_,
      periodEnd_expires_turned rfl ?_, fun hst hrole hup _ => periodEnd_holdoff_turned rfl hst hrole hup,
      fun hd hl he hf hh => ?_⟩
    · exact periodStep_holdoff rfl fun hr => Bool.not_eq_false' .. |>.mpr ((holdoffRuns_iff _).mp hr).2.2
    · cases hline : s.tim.lineUp with
      | true =>
        rw [hline, turned_flag] at hflagDown
        rw [isPending_eq_flag rfl]
        exact hflagDown.trans (by simp)
      | false =>
        rw [hline, turned_flag] at hflagUp
        rw [isPending_eq_flag rfl]
        exact hflagUp.trans (by simp)
    · have h := periodStep_judged hst (s.turned !s.tim.lineUp)
      rw [newPeriod_eq]
      generalize periodStep s.tim (s.turned !s.tim.lineUp) = u at h
      simp only [State.judged, Prod.mk.injEq] at h
      exact h.2
    · rw [isPending_eq_flag rfl, isPending_eq_flag rfl, turned_flag]
      cases s.tim.lineUp <;> simp
    · rw [periodEnd_turned_below hd hl he hf hh]
      exact ⟨lineTurned_counted hl, raisedOnly_raise rfl, rfl⟩

end Sys2Proof.Machine
end

section
/-! PROOFS. The limits of single units at a frame boundary, each by itself (spec 06, R120; 08, R147, R154; 04, R73; 07, R137). -/

namespace Sys2Proof.Machine

open Sys2Proof

theorem framesRun_of {s : State} (h : s.tim.st = .locked ∨ s.tim.st = .driving) : framesRun s = true := by
  rw [framesRun, Bool.or_eq_true, decide_eq_true_eq, decide_eq_true_eq]
  exact h

/-- A limit that is reached at a frame boundary brings its step (log entry 2). -/
theorem limit_acts {s t : State} {due : Bool} (hf : s.tim.st = .locked ∨ s.tim.st = .driving) (h : due = true) :
    (if framesRun s && due then t else s) = t := by rw [framesRun_of hf, h]; rfl

/-- A limit that is not reached brings nothing (log entry 2). -/
theorem limit_waits {s t : State} {due : Bool} (h : ¬ due = true) : (if framesRun s && due then t else s) = s :=
  if_neg fun hd => h (Bool.and_eq_true _ _ |>.mp hd).2

theorem onlyChannel_setChan {s t : State} {c : Chan} {x : Channel} (h : t.chans = (s.setChan c x).chans) : onlyChannel c s t :=
  fun d hd => by
    have hchan : t.chan d = (s.setChan c x).chan d := congrArg (·.get d) h
    rw [hchan, chan_setChan_other s x hd]

/-! ## GAP_EXPIRY (R115, R116, R120) -/

theorem gapDue_iff (x : Channel) : gapDue x = true ↔ x.rx.st ≠ .idle ∧ x.rx.seen = false ∧ x.fl.asserted = false ∧
    x.cfg.gapLimit ≠ 0 ∧ x.cfg.gapLimit ≤ min 255 (x.rx.gap + 1) := by
  have hst : x.rx.st.inProgress = true ↔ x.rx.st ≠ .idle := by cases x.rx.st <;> simp [RxState.inProgress]
  simp only [gapDue, Bool.and_eq_true, hst, Bool.not_eq_true', decide_eq_true_eq, and_assoc]
  rfl

theorem gapStepped_of_due {x : Channel} (h : gapDue x = true) : x.gapStepped = { x with rx := endedUnit x.rx } := by
  obtain ⟨hst, hseen, hass, -, -⟩ := (gapDue_iff x).mp h
  have hprog : x.rx.st.inProgress = true := by cases hs : x.rx.st <;> simp_all [RxState.inProgress]
  simp only [Channel.gapStepped, hprog, hseen, hass, h, if_true, Bool.false_eq_true, if_false, closed_eq_endedUnit hst]

theorem reserves_iff {u : RxUnit} (h : u.st ≠ .idle) : u.reserves = true ↔ u.st ≠ .starved := by
  cases hst : u.st <;> simp_all [RxUnit.reserves]

/-- The unit of a message that has ended (R108, R116, R118). -/
theorem endedUnit_of_progress {u : RxUnit} (h : u.st ≠ .idle) : endedUnit u =
    { st := .idle, first := none, cur := none, fill := 0, len := 0, damaged := false, gap := 0, seen := false
      seq := if u.st = .starved then u.seq else u.seq + 1 } := by
  have hres := reserves_iff h
  by_cases hs : u.st = .starved
  · have hr : u.reserves = false := Bool.not_eq_true _ |>.mp fun hr => hres.mp hr hs
    rw [endedUnit, hr, if_pos hs]
    simp
  · rw [endedUnit, hres.mpr hs, if_neg hs]
    simp

/-- The ring as the message in progress of channel c ends (R129). -/
theorem joined_ending {cause : MsgStatus} (hc : cause ≠ .overrun) {c : Chan} {s : State} (h : (s.chan c).rx.st ≠ .idle) :
    ((s.chan c).rx.st = .starved → s.ring.joined (endingOf cause c s) = s.ring) ∧
    ((s.chan c).rx.st ≠ .starved → s.ring.joined (endingOf cause c s) =
      { s.ring with entries := s.ring.entries ++ [endedAs c cause s], reserved := s.ring.reserved - 1, timer := 0 }) := by
  have hres := reserves_iff h
  rw [endingOf_eq hc]
  refine ⟨fun hs => ?_, fun hs => ?_⟩
  · rw [if_neg fun hr => hres.mp hr hs, joined_nil]
  · rw [if_pos (hres.mpr hs)]
    rfl

theorem exec_gapExpiry {c : Chan} {s : State} (h : s.resetn = true) :
    exec (.gapExpiry c) s = .next (if framesRun s && gapDue (s.chan c) then gapStep c s else s) :=
  congrArg _ (outOfReset_high _ h)

/-- Settles O29. -/
theorem gapExpiryEndsTheMessage : Obligations.GapExpiryEndsTheMessage := by
  unfold Obligations.GapExpiryEndsTheMessage
  intro c s hs hframes x hst hseen hass hlim hgap
  have hdue : gapDue (s.chan c) = true := (gapDue_iff _).mpr ⟨hst, hseen, hass, hlim, hgap⟩
  obtain ⟨hstarved, hplaced⟩ := joined_ending (cause := .gap) (by decide) hst
  rw [exec_gapExpiry hs, limit_acts hframes hdue, gapStep_eq, if_pos hdue, gapStepped_of_due hdue]
  refine ⟨_, rfl, ?_⟩
  refine ⟨onlyChannel_setChan (s := s) rfl, ?_, ?_, hstarved, hplaced, frame_ring ..⟩
  · rw [chan_setChan_same]
  · rw [chan_setChan_same]
    exact endedUnit_of_progress hst

/-! ## REFRESH, HOLD_EXPIRED, PEER_ABSENT and READY_TIMEOUT -/

theorem refreshDue_iff (x : Channel) : refreshDue x = true ↔ x.fl.asserted = true ∧ x.cfg.p ≤ x.fl.refresh + 1 := by
  rw [refreshDue, Bool.and_eq_true, decide_eq_true_eq]

theorem holdDue_iff (x : Channel) : holdDue x = true ↔ x.fl.held = true ∧ x.cfg.h ≤ x.fl.holdCnt + 1 := by
  rw [holdDue, Bool.and_eq_true, decide_eq_true_eq]

theorem absentDue_iff (s : State) (c : Chan) : absentDue s c = true ↔ s.map.active.gives .rx c = true ∧
    (s.chan c).peer.present = true ∧ (s.chan c).peer.mark = false ∧ 7 ≤ (s.chan c).peer.silence := by
  simp only [absentDue, Bool.and_eq_true, Bool.not_eq_true', decide_eq_true_eq, and_assoc, Nat.succ_le_succ_iff]

theorem readyDue_iff (r : Ring) : readyDue r = true ↔ r.entries ≠ [] ∧ r.timeout ≠ 0 ∧ r.timer < r.timeout ∧ r.timeout ≤ r.timer + 1 := by
  simp only [readyDue, Bool.and_eq_true, Bool.not_eq_true', List.isEmpty_eq_false_iff, decide_eq_true_eq, and_assoc]

theorem exec_refresh {c : Chan} {s : State} (h : s.resetn = true) :
    exec (.refresh c) s = .next (if framesRun s && refreshDue (s.chan c) then refreshStep c s else s) :=
  congrArg _ (outOfReset_high _ h)

theorem exec_holdExpired {c : Chan} {s : State} (h : s.resetn = true) :
    exec (.holdExpired c) s = .next (if framesRun s && holdDue (s.chan c) then holdStep c s else s) :=
  congrArg _ (outOfReset_high _ h)

theorem exec_peerAbsent {c : Chan} {s : State} (h : s.resetn = true) :
    exec (.peerAbsent c) s = .next (if framesRun s && absentDue s c then peerStep s.map.active c s else s) :=
  congrArg _ (outOfReset_high _ h)

theorem exec_readyTimeout {s : State} (h : s.resetn = true) :
    exec .readyTimeout s = .next (if framesRun s && readyDue s.ring then readyStep s else s) :=
  congrArg _ (outOfReset_high _ h)

theorem refreshed_of_due {x : Channel} (h : refreshDue x = true) :
    x.refreshed = { x with fl := { x.fl with pauseOwed := true, refresh := 0 } } := by
  obtain ⟨hass, hp⟩ := (refreshDue_iff x).mp h
  rw [Channel.refreshed, if_pos hass, if_pos hp]

theorem holdStepped_of_due {x : Channel} (h : holdDue x = true) :
    x.holdStepped = { x with fl := { x.fl with held := false, holdCnt := 0 } } := by
  obtain ⟨hheld, hh⟩ := (holdDue_iff x).mp h
  rw [Channel.holdStepped, if_pos hheld, if_pos hh]

/-- The eighth all-silent frame (R73). -/
theorem peerStep_absent {c : Chan} {s : State} (h : absentDue s c = true) (h7 : (s.chan c).peer.silence = 7) :
    peerStep s.map.active c s = raise (.peerChange c)
      (s.setChan c { s.chan c with peer := { present := false, silence := 8, mark := false } }) := by
  obtain ⟨hgives, hpresent, hmark, -⟩ := (absentDue_iff s c).mp h
  have hjudge : (s.chan c).peer.judge = { (s.chan c).peer with present := false, silence := 8 } := by
    simp [Peer.judge, hmark, h7, hpresent]
  rw [peerStep, if_pos (by rw [hgives]; rfl)]
  dsimp only
  rw [hjudge, if_neg (by simp [hpresent]), setPeer_eq]

/-- Settles O30. -/
theorem boundaryLimitsAct : Obligations.BoundaryLimitsAct := by
  unfold Obligations.BoundaryLimitsAct
  intro c s hs hframes x
  rw [exec_refresh hs, exec_holdExpired hs, exec_peerAbsent hs, exec_readyTimeout hs]
  refine ⟨fun hass hp => ?_, fun hheld hh => ?_, fun hgives hpresent hmark hsil => ?_, fun hne hto hmax htimer => ?_,
    fun h => congrArg _ (limit_waits fun hd => ?_), fun h => congrArg _ (limit_waits fun hd => ?_),
    fun h => congrArg _ (limit_waits fun hd => ?_), fun h => congrArg _ (limit_waits fun hd => ?_)⟩
  · have hdue := (refreshDue_iff (s.chan c)).mpr ⟨hass, hp⟩
    rw [limit_acts hframes hdue, refreshStep_eq, refreshed_of_due hdue]
    exact ⟨_, rfl, chan_setChan_same .., onlyChannel_setChan rfl, rfl⟩
  · have hdue := (holdDue_iff (s.chan c)).mpr ⟨hheld, hh⟩
    rw [limit_acts hframes hdue, holdStep_eq, if_pos hdue, holdStepped_of_due hdue]
    exact ⟨_, rfl, chan_setChan_same .., onlyChannel_setChan rfl, raisedOnly_raise rfl, rfl⟩
  · have hdue := (absentDue_iff s c).mpr ⟨hgives, hpresent, hmark, hsil.ge⟩
    rw [limit_acts hframes hdue, peerStep_absent hdue hsil]
    exact ⟨_, rfl, chan_setChan_same .., onlyChannel_setChan rfl, raisedOnly_raise rfl, rfl⟩
  · have hdue : readyDue s.ring = true := (readyDue_iff _).mpr ⟨hne, hto, by omega, by omega⟩
    have hstep : readyStep s = { s with ring := { s.ring with timer := s.ring.timer + 1 } } := by
      rw [readyStep, if_neg (by simpa using hne), Nat.min_eq_right (by omega)]
    rw [limit_acts hframes hdue, hstep]
    refine ⟨_, rfl, rfl, ?_⟩
    exact (rxReady_iff _).mpr (.inr ⟨List.length_pos_iff.mpr hne, hto, htimer.ge⟩)
  · obtain ⟨hass, hp⟩ := (refreshDue_iff _).mp hd
    exact h.elim (fun hf => Bool.false_ne_true (hf.symm.trans hass)) fun hlt => Nat.not_le.mpr hlt hp
  · obtain ⟨hheld, hh⟩ := (holdDue_iff _).mp hd
    exact h.elim (fun hf => Bool.false_ne_true (hf.symm.trans hheld)) fun hlt => Nat.not_le.mpr hlt hh
  · obtain ⟨hgives, hpresent, hmark, hsil⟩ := (absentDue_iff s c).mp hd
    rcases h with h | h | h | h
    · exact Bool.false_ne_true (h.symm.trans hgives)
    · exact Bool.false_ne_true (h.symm.trans hpresent)
    · exact Bool.false_ne_true (hmark.symm.trans h)
    · exact Nat.not_le.mpr h hsil
  · obtain ⟨hne, hto, hlt, hle⟩ := (readyDue_iff _).mp hd
    rcases h with h | h | h | h
    · exact hne h
    · exact hto h
    · omega
    · omega

end Sys2Proof.Machine
end

section
/-! PROOFS. A frame boundary (spec 02, R27, R28, R35, R36): the flags it raises, the ring, and peer presence where a switch falls
together with a judgement (R50, R73, R74). -/

namespace Sys2Proof.Machine

open Sys2Proof

/-! ## Two happenings that do not commute -/

/-- Two happenings that occur once each have their effects in one order or the other; the others keep the function. -/
theorem takeAll_either {α : Type} (g : State → α) (j k : α → α) {f f' : State → State} (hf : ∀ s, g (f s) = j (g s))
    (hf' : ∀ s, g (f' s) = k (g s)) {l m : List (State → State)} (hp : l.Perm (f :: f' :: m)) (h : ∀ e ∈ m, ∀ s, g (e s) = g s)
    (s : State) : g (takeAll l s) = k (j (g s)) ∨ g (takeAll l s) = j (k (g s)) := by
  obtain ⟨p, q, rfl⟩ := List.append_of_mem (hp.mem_iff.mpr (List.mem_cons_self ..))
  have hpq : (p ++ q).Perm (f' :: m) := (List.perm_middle.symm.trans hp).cons_inv
  rw [takeAll_append, takeAll_cons]
  rcases List.mem_append.mp (hpq.mem_iff.mpr (List.mem_cons_self ..)) with hin | hin
  · obtain ⟨p', q', rfl⟩ := List.append_of_mem hin
    have hrest : ((p' ++ q') ++ q).Perm m := by
      have h1 : (f' :: ((p' ++ q') ++ q)).Perm (f' :: m) := by
        refine List.Perm.trans ?_ hpq
        rw [← List.cons_append]
        exact List.Perm.append_right q List.perm_middle.symm
      exact h1.cons_inv
    right
    rw [takeAll_eq g fun e he => h e (hrest.mem_iff.mp (List.mem_append_right _ he)), hf]
    refine congrArg j (takeAll_once g k hf' List.perm_middle (fun e he => ?_) s)
    exact h e (hrest.mem_iff.mp (List.mem_append_left _ he))
  · obtain ⟨p', q', rfl⟩ := List.append_of_mem hin
    have hrest : (p ++ (p' ++ q')).Perm m := by
      have h1 : (f' :: (p ++ (p' ++ q'))).Perm (f' :: m) := by
        refine List.Perm.trans ?_ hpq
        rw [← List.append_assoc, ← List.append_assoc]
        refine List.Perm.trans ?_ List.perm_middle.symm
        rw [List.append_assoc]
      exact h1.cons_inv
    left
    rw [takeAll_once g k hf' List.perm_middle (fun e he => h e (hrest.mem_iff.mp (List.mem_append_right _ he))), hf,
      takeAll_eq g fun e he => h e (hrest.mem_iff.mp (List.mem_append_left _ he))]

theorem takeTogether_either {α : Type} (g : State → α) (j k : α → α) {f f' : State → State} (hf : ∀ s, g (f s) = j (g s))
    (hf' : ∀ s, g (f' s) = k (g s)) {l m : List (State → State)} (hp : l.Perm (f :: f' :: m)) (h : ∀ e ∈ m, ∀ s, g (e s) = g s)
    (ha : ∀ s : State, g { s with arb := s.arb + 1 } = g s) (isOpen : Bool) (s : State) :
    g (takeTogether isOpen l s) = k (j (g s)) ∨ g (takeTogether isOpen l s) = j (k (g s)) := by
  unfold takeTogether
  split
  · rw [← ha s]
    exact takeAll_either g j k hf hf' ((permute_perm _ _).trans hp) h _
  · exact takeAll_either g j k hf hf' hp h s

/-! ## The flags that each happening raises -/

/-- A judgement that changes the presence of a peer (R73). -/
def Peer.turns (p : Peer) : Bool := decide (p.judge.present ≠ p.present)

theorem Peer.turns_iff (p : Peer) :
    p.turns = true ↔ (p.present = false ∧ p.mark = true) ∨ (p.present = true ∧ p.mark = false ∧ 7 ≤ p.silence) := by
  have hsil : min 8 (p.silence + 1) < 8 ↔ ¬ 7 ≤ p.silence := by omega
  cases hp : p.present <;> cases hm : p.mark <;> simp [Peer.turns, Peer.judge, hp, hm, hsil]

theorem readyStep_flag (x : Source) (s : State) : (readyStep s).flag x = s.flag x := ite_reads (g := (State.flag · x)) rfl rfl

theorem gapStep_flag (c : Chan) (x : Source) (s : State) : (gapStep c s).flag x = s.flag x := by rw [gapStep_eq]; rfl

theorem peerStep_flag (worked : Bank) (c : Chan) (x : Source) (s : State) : (peerStep worked c s).flag x = (s.flag x ||
    (decide (x = .peerChange c) && ((worked.gives .rx c && s.map.active.gives .rx c) && (s.chan c).peer.turns))) := by
  have hev : (peerStep worked c s).ev = if (worked.gives .rx c && s.map.active.gives .rx c) && (s.chan c).peer.turns then
      (raise (.peerChange c) s).ev else s.ev := by rw [peerStep_eq]; rfl
  have hflag : (peerStep worked c s).flag x = (peerStep worked c s).ev.latched.get x.place := rfl
  rw [hflag, hev]
  split
  · next h => rw [h, Bool.and_true]; exact flag_raise ..
  · next h => rw [Bool.not_eq_true] at h; rw [h, Bool.and_false, Bool.or_false]; rfl

theorem holdStep_flag (c : Chan) (x : Source) (s : State) :
    (holdStep c s).flag x = (s.flag x || (decide (x = .holdExpired c) && holdDue (s.chan c))) := by
  rw [holdStep_eq]
  split
  · next h => rw [flag_raise, h, Bool.and_true]; rfl
  · next h => rw [Bool.not_eq_true] at h; rw [h, Bool.and_false, Bool.or_false]; rfl

theorem refreshStep_flag (c : Chan) (x : Source) (s : State) : (refreshStep c s).flag x = s.flag x := by
  rw [refreshStep_eq]; rfl

/-! ## The flags over the timers -/

theorem timed_flag_other {x : Source} (h : ∀ c, x ≠ .holdExpired c) (s : State) : s.timed.flag x = s.flag x := by
  refine takeAll_eq (State.flag · x) (fun f hf t => ?_) s
  rcases List.mem_append.mp hf with hf | hf
  · obtain ⟨c, -, rfl⟩ := List.mem_map.mp hf
    exact refreshStep_flag ..
  · obtain ⟨c, -, rfl⟩ := List.mem_map.mp hf
    rw [holdStep_flag, decide_eq_false (h c), Bool.false_and, Bool.or_false]

theorem holdDue_refreshed (x : Channel) : holdDue x.refreshed = holdDue x := by
  unfold Channel.refreshed
  split
  · split <;> rfl
  · rfl

/-- HOLD_EXPIRED is raised where the hold of its channel expires (R154). -/
theorem timed_flag_holdExpired (c : Chan) (s : State) :
    s.timed.flag (.holdExpired c) = (s.flag (.holdExpired c) || holdDue (s.chan c)) := by
  have hrefreshed : (takeAll (channels.map refreshStep) s).chan c = (s.chan c).refreshed :=
    (takeAll_chan (fun _ => ()) (fun _ _ x => x.refreshed) refreshStep (fun _ _ => rfl)
      (fun c d s => by rw [refreshStep_eq, chan_setChan]) _ channels_nodup s c).trans (if_pos (mem_channels c))
  have hflag : (takeAll (channels.map refreshStep) s).flag (.holdExpired c) = s.flag (.holdExpired c) := by
    refine takeAll_eq (State.flag · (.holdExpired c)) (fun f hf t => ?_) s
    obtain ⟨d, -, rfl⟩ := List.mem_map.mp hf
    exact refreshStep_flag ..
  have hother : ∀ f ∈ (channels.erase c).map holdStep, ∀ t : State,
      (f t).flag (.holdExpired c) = t.flag (.holdExpired c) ∧ (f t).chan c = t.chan c := by
    intro f hf t
    obtain ⟨d, hd, rfl⟩ := List.mem_map.mp hf
    have hne : d ≠ c := fun e => not_mem_erase c (e ▸ hd)
    refine ⟨?_, by rw [holdStep_chan, if_neg hne.symm]⟩
    rw [holdStep_flag, decide_eq_false (fun e => hne (Source.holdExpired.inj e).symm), Bool.false_and, Bool.or_false]
  unfold State.timed
  rw [takeAll_append, takeAll_reads (fun t : State => (t.flag (.holdExpired c), holdDue (t.chan c))) (State.flag · (.holdExpired c))
    (fun v => v.1 || v.2) (f := holdStep c) (fun t => by simp [holdStep_flag]) ((channels_perm c).map holdStep)
    (fun f hf t => by simp only [(hother f hf t).1, (hother f hf t).2]) (fun f hf t => (hother f hf t).1), hflag, hrefreshed,
    holdDue_refreshed]

/-! ## The flags over a boundary -/

theorem boundaryActs_flag_other {x : Source} (h : ∀ c, x ≠ .peerChange c) (worked : Bank) (f : State → State)
    (hf : f ∈ boundaryActs worked) (s : State) : (f s).flag x = s.flag x := by
  unfold boundaryActs at hf
  simp only [List.mem_append, List.mem_map, List.mem_singleton] at hf
  rcases hf with (rfl | ⟨c, -, rfl⟩) | ⟨c, -, rfl⟩
  · exact readyStep_flag ..
  · exact gapStep_flag ..
  · rw [peerStep_flag, decide_eq_false (h c), Bool.false_and, Bool.or_false]

/-- Beside the PEER_CHANGE sources a boundary raises COMMIT_DONE alone, where it switches (R49). -/
theorem boundaryWork_flag_other {x : Source} (h : ∀ c, x ≠ .peerChange c) (s : State) : (boundaryWork s).flag x =
    (s.timed.flag x || (decide (x = .commitDone) && decide (s.map.commit = .pending))) := by
  have hswitch : ∀ t : State, (switchBanks t).flag x = (t.flag x || decide (x = .commitDone)) := fun t => by
    rw [switchBanks_flag]
    cases x with
    | peerChange c => exact absurd rfl (h c)
    | _ => rfl
  have hacts : ∀ f ∈ countFrame :: boundaryActs s.timed.map.active, ∀ t : State, (f t).flag x = t.flag x := by
    intro f hf t
    rcases List.mem_cons.mp hf with rfl | hf
    · rfl
    · exact boundaryActs_flag_other h _ f hf t
  have hpend : s.timed.switchPending = decide (s.map.commit = .pending) := by rw [State.switchPending, timed_map]
  rw [boundaryWork_eq]
  by_cases hp : s.map.commit = .pending
  · rw [hpend, if_pos (decide_eq_true hp), ← List.cons_append, decide_eq_true hp, Bool.and_true]
    exact takeTogether_once (State.flag · x) (fun b => b || decide (x = .commitDone)) hswitch (List.perm_append_singleton ..) hacts
      (fun _ => rfl) _ s.timed
  · rw [hpend, if_neg (by simpa using hp), List.append_nil, decide_eq_false hp, Bool.and_false, Bool.or_false]
    exact takeTogether_eq (State.flag · x) hacts (fun _ => rfl) _ s.timed

/-- The event unit with its flags taken as e. -/
def State.evBeside (e : Vector Bool 59) (s : State) : EventUnit := { s.ev with latched := e }

theorem evBeside_raise (e : Vector Bool 59) (x : Source) (s : State) : (raise x s).evBeside e = s.evBeside e := rfl

theorem peerStep_evBeside (e : Vector Bool 59) (worked : Bank) (c : Chan) (s : State) :
    (peerStep worked c s).evBeside e = s.evBeside e := by
  unfold peerStep
  dsimp only
  exact ite_reads (ite_reads rfl (evBeside_raise ..)) rfl

theorem holdStep_evBeside (e : Vector Bool 59) (c : Chan) (s : State) : (holdStep c s).evBeside e = s.evBeside e := by
  rw [holdStep_eq]
  exact ite_reads (evBeside_raise ..) rfl

theorem boundaryActs_evBeside (e : Vector Bool 59) (worked : Bank) (f : State → State) (hf : f ∈ boundaryActs worked) (s : State) :
    (f s).evBeside e = s.evBeside e := by
  unfold boundaryActs at hf
  simp only [List.mem_append, List.mem_map, List.mem_singleton] at hf
  rcases hf with (rfl | ⟨c, -, rfl⟩) | ⟨c, -, rfl⟩
  · exact ite_reads rfl rfl
  · rw [gapStep_eq]; rfl
  · exact peerStep_evBeside ..

theorem timed_evBeside (e : Vector Bool 59) (s : State) : s.timed.evBeside e = s.evBeside e := by
  refine takeAll_eq (State.evBeside e) (fun f hf t => ?_) s
  rcases List.mem_append.mp hf with hf | hf
  · obtain ⟨c, -, rfl⟩ := List.mem_map.mp hf
    rw [refreshStep_eq]; rfl
  · obtain ⟨c, -, rfl⟩ := List.mem_map.mp hf
    exact holdStep_evBeside ..

/-- Of the event unit a boundary changes flags alone. -/
theorem boundaryWork_evBeside (e : Vector Bool 59) (s : State) : (boundaryWork s).evBeside e = s.evBeside e :=
  (boundary_keeps (State.evBeside e) (fun _ => rfl) (boundaryActs_evBeside e) (switchBanks_evFrame e) (fun _ => rfl) s).trans
    (timed_evBeside e s)

theorem boundaryWork_raisedWithin (s : State) : raisedWithin (switchSources ++ channels.map .holdExpired) s (boundaryWork s) := by
  have hev := boundaryWork_evBeside (boundaryWork s).ev.latched s
  have hflag := fun (x : Source) h => boundaryWork_flag_other (x := x) h s
  generalize boundaryWork s = t at hev hflag ⊢
  refine ⟨hev, fun x _ hx => ?_⟩
  rw [List.mem_append, not_or, switchSources, List.mem_cons, not_or] at hx
  obtain ⟨⟨hcommit, hpeer⟩, hhold⟩ := hx
  have hpeer' : ∀ c, x ≠ .peerChange c := fun c e => hpeer (e ▸ List.mem_map_of_mem (mem_channels c))
  have hhold' : ∀ c, x ≠ .holdExpired c := fun c e => hhold (e ▸ List.mem_map_of_mem (mem_channels c))
  have h := hflag x hpeer'
  rw [decide_eq_false hcommit, Bool.false_and, Bool.or_false, timed_flag_other hhold'] at h
  exact h

/-- The ring begins with the entries ds. -/
def State.ringFrom (ds : List Descriptor) (s : State) : Prop := ds <+: s.ring.entries

theorem ringFrom_joined {ds es : List Descriptor} {s t : State} (h : s.ringFrom ds) (ht : t.ring = s.ring.joined es) : t.ringFrom ds := by
  unfold State.ringFrom
  rw [ht]
  exact h.trans (List.prefix_append ..)

theorem boundaryActs_ringFrom {ds : List Descriptor} (worked : Bank) (f : State → State) (hf : f ∈ boundaryActs worked) (s : State)
    (h : s.ringFrom ds) : (f s).ringFrom ds := by
  unfold boundaryActs at hf
  simp only [List.mem_append, List.mem_map, List.mem_singleton] at hf
  rcases hf with (rfl | ⟨c, -, rfl⟩) | ⟨c, -, rfl⟩
  · unfold readyStep
    split <;> exact h
  · rw [gapStep_eq]
    by_cases hg : gapDue (s.chan c) = true
    · rw [if_pos hg]
      exact ringFrom_joined h rfl
    · rw [if_neg hg]
      exact h
  · rw [peerStep_eq]; exact h

theorem switchBanks_ringFrom {ds : List Descriptor} {s : State} (h : s.ringFrom ds) : (switchBanks s).ringFrom ds := by
  obtain ⟨es, hring, -⟩ := (switchBanks_messagesEnd s).ring
  exact ringFrom_joined h hring

theorem ring_of_frame {s t : State} (h : { t with chans := s.chans, ev := s.ev } = s) : t.ring = s.ring := by
  have h' := congrArg State.ring h; exact h'

/-- The entries of the ring stay at its head (R129). -/
theorem boundaryWork_entries (s : State) : s.ring.entries <+: (boundaryWork s).ring.entries := by
  have htimed : s.timed.ringFrom s.ring.entries := by
    unfold State.ringFrom
    rw [ring_of_frame (timed_frame s)]
  change (boundaryWork s).ringFrom s.ring.entries
  rw [boundaryWork_eq]
  generalize s.timed = u at htimed
  generalize s.ring.entries = ds at htimed
  refine takeTogether_keeps (P := State.ringFrom ds) ?_ (fun _ ht => ht) _ htimed
  intro f hf t ht
  rcases List.mem_cons.mp hf with rfl | hf
  · exact ht
  · rcases List.mem_append.mp hf with hf | hf
    · exact boundaryActs_ringFrom _ f hf t ht
    · split at hf
      · rw [List.mem_singleton] at hf
        subst hf
        exact switchBanks_ringFrom ht
      · simp at hf

end Sys2Proof.Machine
end

section
/-! PROOFS. What a frame boundary leaves of every channel and of the ready timer (spec 02, R36; 04, R73; 06, R119, R120; 07, R137; 08,
R147, R154). -/

namespace Sys2Proof.Machine

open Sys2Proof

/-! ## Peer presence and a switch at the same boundary (R73, R74) -/

/-- What a judgement and a switch notice of channel d read and change. -/
def State.presence (d : Chan) (s : State) : Bool × MapUnit × Peer := (s.flag (.peerChange d), s.map, (s.chan d).peer)

/-- Whether the frame that ends is judged at channel d: an RX slot in the bank it was worked under and in ACTIVE. -/
def judges (worked : Bank) (d : Chan) (m : MapUnit) : Bool := worked.gives .rx d && m.active.gives .rx d

/-- A presence after the judgement of the frame (R73). -/
def presenceJudged (worked : Bank) (d : Chan) (v : Bool × MapUnit × Peer) : Bool × MapUnit × Peer :=
  (v.1 || (judges worked d v.2.1 && v.2.2.turns), v.2.1,
    { (if judges worked d v.2.1 then v.2.2.judge else v.2.2) with mark := false })

/-- A presence after a switch (R74). -/
def presenceSwitched (d : Chan) (v : Bool × MapUnit × Peer) : Bool × MapUnit × Peer :=
  (v.1 || (!v.2.1.shadow.gives .rx d && v.2.2.present), v.2.1.switched, v.2.2.noticed v.2.1.shadow d)

theorem peerStep_presence (worked : Bank) (d : Chan) (s : State) :
    (peerStep worked d s).presence d = presenceJudged worked d (s.presence d) := by
  have hflag := peerStep_flag worked d (.peerChange d) s
  rw [decide_eq_true rfl, Bool.true_and] at hflag
  have hchan := peerStep_chan worked d d s
  rw [if_pos rfl] at hchan
  have hmap : (peerStep worked d s).map = s.map := by rw [peerStep_eq]; rfl
  unfold State.presence
  rw [hflag, hmap, hchan]
  rfl

theorem switchBanks_presence (d : Chan) (s : State) : (switchBanks s).presence d = presenceSwitched d (s.presence d) := by
  unfold State.presence
  rw [switchBanks_flag, switchBanks_map, switchBanks_chan, noticed_peer]
  rfl

/-- The happenings of a boundary but for the judgement of channel d. -/
def boundaryOthers (worked : Bank) (d : Chan) : List (State → State) :=
  [readyStep] ++ channels.map gapStep ++ (channels.erase d).map (peerStep worked)

theorem boundaryActs_perm (worked : Bank) (d : Chan) : (boundaryActs worked).Perm (peerStep worked d :: boundaryOthers worked d) :=
  (((channels_perm d).map (peerStep worked)).append_left _).trans List.perm_middle

theorem gapStepped_peer (x : Channel) : x.gapStepped.peer = x.peer := by
  unfold Channel.gapStepped
  split
  · split
    · rfl
    · split
      · rfl
      · split <;> rfl
  · rfl

theorem boundaryOthers_presence (worked : Bank) (d : Chan) (f : State → State) (hf : f ∈ boundaryOthers worked d) (s : State) :
    (f s).presence d = s.presence d := by
  unfold boundaryOthers at hf
  simp only [List.mem_append, List.mem_map, List.mem_singleton] at hf
  rcases hf with (rfl | ⟨c, -, rfl⟩) | ⟨c, hc, rfl⟩
  · exact ite_reads rfl rfl
  · have hpeer : ((gapStep c s).chan d).peer = (s.chan d).peer := by
      rw [gapStep_chan]
      split
      · next h => rw [gapStepped_peer, h]
      · rfl
    have hmap : (gapStep c s).map = s.map := by rw [gapStep_eq]; rfl
    unfold State.presence
    rw [gapStep_flag, hmap, hpeer]
  · have hne : c ≠ d := fun e => not_mem_erase d (e ▸ hc)
    have hmap : (peerStep worked c s).map = s.map := by rw [peerStep_eq]; rfl
    unfold State.presence
    rw [peerStep_flag, decide_eq_false (fun e => hne (Source.peerChange.inj e).symm), Bool.false_and, Bool.or_false, hmap,
      peerStep_chan, if_neg hne.symm]

theorem timed_peer (s : State) (d : Chan) : (s.timed.chan d).peer = (s.chan d).peer := by
  rw [timed_chan]
  unfold Channel.timed Channel.refreshed Channel.holdStepped
  split
  · split <;> (split <;> (try split)) <;> rfl
  · split <;> (try split) <;> rfl

theorem timed_presence (s : State) (d : Chan) : s.timed.presence d = s.presence d := by
  have hflag := timed_flag_other (x := .peerChange d) (by simp) s
  have hpeer := timed_peer s d
  unfold State.presence
  rw [hflag, hpeer, timed_map]

theorem boundaryRest_presence (worked : Bank) (d : Chan) :
    ∀ f ∈ countFrame :: boundaryOthers worked d, ∀ s : State, (f s).presence d = s.presence d := by
  intro f hf s
  rcases List.mem_cons.mp hf with rfl | hf
  · rfl
  · exact boundaryOthers_presence _ _ f hf s

/-- With no commit pending the frame is judged and nothing else moves the presence of a peer (R73). -/
theorem boundaryWork_presence_idle {s : State} (h : s.map.commit ≠ .pending) (d : Chan) :
    (boundaryWork s).presence d = presenceJudged s.map.active d (s.presence d) := by
  have hpend : s.timed.switchPending = false := by rw [State.switchPending, timed_map, decide_eq_false h]
  have hrest := boundaryRest_presence s.map.active d
  have hperm := ((boundaryActs_perm s.map.active d).cons countFrame).trans (List.Perm.swap ..)
  rw [← timed_presence s d, boundaryWork_eq, hpend, if_neg Bool.false_ne_true, List.append_nil, timed_map]
  generalize s.timed = u
  exact takeTogether_once (State.presence d) (presenceJudged s.map.active d) (peerStep_presence s.map.active d) hperm hrest
    (fun _ => rfl) _ u

/-- With a commit pending the judgement and the switch fall together, in an order that is open (R54). -/
theorem boundaryWork_presence_pending {s : State} (h : s.map.commit = .pending) (d : Chan) :
    (boundaryWork s).presence d = presenceSwitched d (presenceJudged s.map.active d (s.presence d)) ∨
    (boundaryWork s).presence d = presenceJudged s.map.active d (presenceSwitched d (s.presence d)) := by
  have hpend : s.timed.switchPending = true := by rw [State.switchPending, timed_map, decide_eq_true h]
  have hrest := boundaryRest_presence s.map.active d
  have hperm : (countFrame :: (boundaryActs s.map.active ++ [switchBanks])).Perm
      (peerStep s.map.active d :: switchBanks :: countFrame :: boundaryOthers s.map.active d) := by
    have hlast : (countFrame :: (boundaryActs s.map.active ++ [switchBanks])).Perm
        (switchBanks :: countFrame :: boundaryActs s.map.active) := by
      rw [← List.cons_append]
      exact List.perm_append_singleton ..
    have hinner := ((boundaryActs_perm s.map.active d).cons countFrame).trans (List.Perm.swap ..)
    exact hlast.trans ((hinner.cons switchBanks).trans (List.Perm.swap ..))
  rw [← timed_presence s d, boundaryWork_eq, hpend, if_pos rfl, timed_map]
  generalize s.timed = u
  exact takeTogether_either (State.presence d) (presenceJudged s.map.active d) (presenceSwitched d)
    (peerStep_presence s.map.active d) (switchBanks_presence d) hperm hrest (fun _ => rfl) _ u

/-! ## What raises PEER_CHANGE -/

/-- A frame is judged at a channel and turns its presence. -/
def judgementTurns (d : Chan) (v : Bool × MapUnit × Peer) : Prop := v.2.1.active.gives .rx d = true ∧ v.2.2.turns = true

theorem presenceJudged_raised {d : Chan} {v : Bool × MapUnit × Peer} (h : (presenceJudged v.2.1.active d v).1 = true) :
    v.1 = true ∨ judgementTurns d v := by
  simp only [presenceJudged, judges, Bool.and_self, Bool.or_eq_true, Bool.and_eq_true] at h
  exact h

theorem presenceSwitched_raised {d : Chan} {v : Bool × MapUnit × Peer} (h : (presenceSwitched d v).1 = true) :
    v.1 = true ∨ (v.2.1.shadow.gives .rx d = false ∧ v.2.2.present = true) := by
  simp only [presenceSwitched, Bool.or_eq_true, Bool.and_eq_true, Bool.not_eq_true'] at h
  exact h

/-- A judgement that turns nothing leaves the presence (R73). -/
theorem presenceJudged_present {d : Chan} {v : Bool × MapUnit × Peer} (h : ¬ judgementTurns d v) :
    (presenceJudged v.2.1.active d v).2.2.present = v.2.2.present := by
  simp only [presenceJudged, judges, Bool.and_self]
  by_cases hg : v.2.1.active.gives .rx d = true
  · rw [if_pos hg]
    have hturns : ¬ v.2.2.turns = true := fun ht => h ⟨hg, ht⟩
    rw [Peer.turns, decide_eq_true_eq, not_not] at hturns
    exact hturns
  · rw [if_neg hg]

/-- A judgement after a switch is of a channel that keeps its RX slots, whose presence the switch leaves (R73, R74). -/
theorem presenceJudged_switched_raised {d : Chan} {v : Bool × MapUnit × Peer}
    (h : (presenceJudged v.2.1.active d (presenceSwitched d v)).1 = true) :
    (presenceSwitched d v).1 = true ∨ judgementTurns d v := by
  have hor : (presenceSwitched d v).1 = true ∨
      ((v.2.1.active.gives .rx d = true ∧ v.2.1.shadow.gives .rx d = true) ∧ (v.2.2.noticed v.2.1.shadow d).turns = true) := by
    simp only [presenceJudged, judges, Bool.or_eq_true, Bool.and_eq_true] at h
    exact h
  refine hor.imp id fun ⟨⟨hactive, hshadow⟩, hturns⟩ => ⟨hactive, ?_⟩
  rwa [Peer.noticed, if_pos hshadow] at hturns

/-- What raises PEER_CHANGE of a channel at a boundary (R73, R74). -/
theorem boundaryWork_peerChange {s : State} {c : Chan} (h : (boundaryWork s).flag (.peerChange c) = true) :
    s.flag (.peerChange c) = true ∨
    ((decide (s.map.commit = .pending)) = true ∧ s.map.shadow.gives .rx c = false ∧ (s.chan c).peer.present = true) ∨
    (s.map.active.gives .rx c = true ∧ (s.chan c).peer.present = false ∧ (s.chan c).peer.mark = true) ∨
    (s.map.active.gives .rx c = true ∧ (s.chan c).peer.present = true ∧ (s.chan c).peer.mark = false ∧
      7 ≤ (s.chan c).peer.silence) := by
  have hflag : ((boundaryWork s).presence c).1 = true := h
  by_cases hturns : judgementTurns c (s.presence c)
  · exact .inr (.inr (((Peer.turns_iff _).mp hturns.2).imp (⟨hturns.1, ·⟩) (⟨hturns.1, ·⟩)))
  by_cases hp : s.map.commit = .pending
  · have hraised : (presenceSwitched c (s.presence c)).1 = true := by
      rcases boundaryWork_presence_pending hp c with hv | hv
      · rw [hv] at hflag
        have hpresent := presenceJudged_present hturns
        refine Bool.or_eq_true _ _ |>.mpr ((presenceSwitched_raised hflag).imp (fun hj => ?_) fun ⟨hgone, hthere⟩ => ?_)
        · exact (presenceJudged_raised hj).resolve_right hturns
        · rw [Bool.and_eq_true, Bool.not_eq_true']
          exact ⟨hgone, hpresent.symm.trans hthere⟩
      · rw [hv] at hflag
        exact (presenceJudged_switched_raised hflag).resolve_right hturns
    exact (presenceSwitched_raised hraised).imp id fun h => .inl ⟨decide_eq_true hp, h⟩
  · rw [boundaryWork_presence_idle hp] at hflag
    exact .inl ((presenceJudged_raised hflag).resolve_right hturns)
/-! ## The channels over a boundary -/

/-- What neither a message's end nor a peer's judgement nor a switch notice touches of a channel. -/
def Channel.settings (x : Channel) : ChanCfg × Sticky × FlowUnit × Nat := (x.cfg, x.sticky, x.fl, x.held)

theorem gapStepped_settings (x : Channel) : x.gapStepped.settings = x.settings ∧ x.gapStepped.tx = x.tx := by
  unfold Channel.gapStepped
  split
  · split
    · exact ⟨rfl, rfl⟩
    · split
      · exact ⟨rfl, rfl⟩
      · split <;> exact ⟨rfl, rfl⟩
  · exact ⟨rfl, rfl⟩

theorem chan_ite_eq {α : Type} (g : Channel → α) {s t : State} {c d : Chan} {x : Channel} (ht : t.chan d = if d = c then x else s.chan d)
    (hx : g x = g (s.chan c)) : g (t.chan d) = g (s.chan d) := by
  rw [ht]
  split
  · next h => rw [hx, h]
  · rfl

theorem boundaryActs_settings (d : Chan) (worked : Bank) (f : State → State) (hf : f ∈ boundaryActs worked) (s : State) :
    ((f s).chan d).settings = (s.chan d).settings := by
  unfold boundaryActs at hf
  simp only [List.mem_append, List.mem_map, List.mem_singleton] at hf
  rcases hf with (rfl | ⟨c, -, rfl⟩) | ⟨c, -, rfl⟩
  · exact ite_reads (g := fun t : State => (t.chan d).settings) rfl rfl
  · exact chan_ite_eq Channel.settings (gapStep_chan c d s) (gapStepped_settings _).1
  · exact chan_ite_eq Channel.settings (peerStep_chan worked c d s) rfl

theorem switchBanks_settings (d : Chan) (s : State) : ((switchBanks s).chan d).settings = (s.chan d).settings := by
  obtain ⟨hcfg, hsticky, hfl, hheld⟩ := noticed_rest s.map.shadow d (s.chan d)
  rw [switchBanks_chan]
  unfold Channel.settings
  rw [hcfg, hsticky, hfl, hheld]

/-- A boundary leaves the configuration and the flow unit of a channel as its timers left them, whatever ends or switches at it. -/
theorem boundaryWork_settings (d : Chan) (s : State) : ((boundaryWork s).chan d).settings = (s.chan d).timed.settings := by
  rw [boundary_keeps (fun t => (t.chan d).settings) (fun _ => rfl) (boundaryActs_settings d) (switchBanks_settings d) (fun _ => rfl) s,
    timed_chan]

/-- A channel and whether ACTIVE gives it an RX slot. -/
def State.channelView (d : Chan) (s : State) : Channel × Bool := (s.chan d, s.map.active.gives .rx d)

theorem gapStep_view_same (d : Chan) (s : State) : (gapStep d s).channelView d = ((s.channelView d).1.gapStepped, (s.channelView d).2) := by
  have hmap : (gapStep d s).map = s.map := by rw [gapStep_eq]; rfl
  unfold State.channelView
  rw [gapStep_chan, if_pos rfl, hmap]

theorem peerStep_view_same (worked : Bank) (d : Chan) (s : State) : (peerStep worked d s).channelView d =
    ((s.channelView d).1.peerStepped (worked.gives .rx d && (s.channelView d).2), (s.channelView d).2) := by
  have hmap : (peerStep worked d s).map = s.map := by rw [peerStep_eq]; rfl
  unfold State.channelView
  rw [peerStep_chan, if_pos rfl, hmap]

/-- The happenings of a boundary but for the two of channel d. -/
def boundaryBeside (worked : Bank) (d : Chan) : List (State → State) :=
  countFrame :: ([readyStep] ++ (channels.erase d).map gapStep ++ (channels.erase d).map (peerStep worked))

theorem boundaryBeside_view (worked : Bank) (d : Chan) (f : State → State) (hf : f ∈ boundaryBeside worked d) (s : State) :
    (f s).channelView d = s.channelView d := by
  unfold boundaryBeside at hf
  simp only [List.mem_cons, List.mem_append, List.mem_map, List.not_mem_nil, or_false] at hf
  rcases hf with rfl | (rfl | ⟨c, hc, rfl⟩) | ⟨c, hc, rfl⟩
  · rfl
  · exact ite_reads (g := State.channelView d) rfl rfl
  · have hne : d ≠ c := fun e => not_mem_erase d (e ▸ hc)
    have hmap : (gapStep c s).map = s.map := by rw [gapStep_eq]; rfl
    unfold State.channelView
    rw [gapStep_chan, if_neg hne, hmap]
  · have hne : d ≠ c := fun e => not_mem_erase d (e ▸ hc)
    have hmap : (peerStep worked c s).map = s.map := by rw [peerStep_eq]; rfl
    unfold State.channelView
    rw [peerStep_chan, if_neg hne, hmap]

theorem boundaryActs_perm_both (worked : Bank) (d : Chan) :
    (countFrame :: boundaryActs worked).Perm (gapStep d :: peerStep worked d :: boundaryBeside worked d) := by
  have hgap : (boundaryOthers worked d).Perm
      (gapStep d :: ([readyStep] ++ (channels.erase d).map gapStep ++ (channels.erase d).map (peerStep worked))) := by
    unfold boundaryOthers
    exact ((((channels_perm d).map gapStep).append_left [readyStep]).trans List.perm_middle).append_right _
  have hboth := ((boundaryActs_perm worked d).trans (hgap.cons _)).cons countFrame
  exact hboth.trans ((List.Perm.swap ..).trans (((List.Perm.swap ..).cons _).trans (List.Perm.swap ..)))

/-- A gap count and a judgement touch different units of a channel. -/
theorem gapStepped_peerStepped (judged : Bool) (x : Channel) :
    (x.peerStepped judged).gapStepped = x.gapStepped.peerStepped judged := by
  unfold Channel.gapStepped Channel.peerStepped
  have hdue : ∀ p : Peer, gapDue { x with peer := p } = gapDue x := fun _ => rfl
  dsimp only
  rw [hdue]
  split
  · split
    · rfl
    · split
      · rfl
      · split <;> rfl
  · rfl

/-- With no commit pending every channel takes its timers, its gap count and its judgement (R36). -/
theorem boundaryWork_chan_idle {s : State} (h : s.map.commit ≠ .pending) (d : Chan) :
    (boundaryWork s).chan d = (s.chan d).timed.gapStepped.peerStepped (s.map.active.gives .rx d) := by
  have hpend : s.timed.switchPending = false := by rw [State.switchPending, timed_map, decide_eq_false h]
  have hview : (s.timed.channelView d) = ((s.chan d).timed, s.map.active.gives .rx d) := by
    rw [State.channelView, timed_chan, timed_map]
  have htwice := takeTogether_twice (State.channelView d) (fun v => (v.1.gapStepped, v.2))
    (fun v => (v.1.peerStepped (s.map.active.gives .rx d && v.2), v.2)) (fun v => by rw [gapStepped_peerStepped])
    (gapStep_view_same d) (peerStep_view_same s.map.active d) (boundaryActs_perm_both s.map.active d)
    (boundaryBeside_view s.map.active d) (fun _ => rfl) (boundaryOpen s.timed) s.timed
  rw [hview] at htwice
  have hwork : boundaryWork s = takeTogether (boundaryOpen s.timed) (countFrame :: boundaryActs s.map.active) s.timed := by
    rw [boundaryWork_eq, hpend, if_neg Bool.false_ne_true, List.append_nil, timed_map]
  rw [← hwork] at htwice
  have hchan := congrArg Prod.fst htwice
  rw [Bool.and_self, gapStepped_peerStepped] at hchan
  exact hchan

/-! ## The ready timer over a boundary (R137) -/

theorem readyStep_ring (s : State) : (readyStep s).ring =
    { s.ring with timer := if s.ring.entries.isEmpty then s.ring.timer else min 255 (s.ring.timer + 1) } := by
  unfold readyStep
  split <;> rfl

theorem takeAll_gapStep_ring (l : List Chan) (hl : l.Nodup) (s : State) (h : ∀ c ∈ l, gapDue (s.chan c) = false) :
    (takeAll (l.map gapStep) s).ring = s.ring := by
  induction l generalizing s with
  | nil => rfl
  | cons c l ih =>
    obtain ⟨hc, hl⟩ := List.nodup_cons.mp hl
    rw [List.map_cons, takeAll_cons, ih hl (gapStep c s) fun d hd => ?_]
    · rw [gapStep_eq, if_neg (by rw [h c (List.mem_cons_self ..)]; exact Bool.false_ne_true)]
      rfl
    · have hne : d ≠ c := fun e => hc (e ▸ hd)
      rw [gapStep_chan, if_neg hne]
      exact h d (List.mem_cons_of_mem _ hd)

/-- With no commit pending and no message ending, a boundary steps the ready timer and nothing else of the ring (R137). -/
theorem boundaryWork_ring_quiet {s : State} (h : s.map.commit ≠ .pending) (hgap : ∀ c, gapDue (s.timed.chan c) = false) :
    (boundaryWork s).ring =
      { s.ring with timer := if s.ring.entries.isEmpty then s.ring.timer else min 255 (s.ring.timer + 1) } := by
  have hpend : s.timed.switchPending = false := by rw [State.switchPending, timed_map, decide_eq_false h]
  have hopen : boundaryOpen s.timed = false := by
    rw [boundaryOpen, hpend, Bool.false_or, List.any_eq_false]
    exact fun c _ => by rw [hgap c]; exact Bool.false_ne_true
  rw [boundaryWork_eq, hpend, if_neg Bool.false_ne_true, List.append_nil, hopen,
    ← ring_of_frame (timed_frame s)]
  generalize s.timed = u at hgap
  have hchans : (readyStep (countFrame u)).chans = u.chans := ite_reads (g := State.chans) rfl rfl
  have hsteps : takeTogether false (countFrame :: boundaryActs u.map.active) u =
      takeAll (channels.map (peerStep u.map.active)) (takeAll (channels.map gapStep) (readyStep (countFrame u))) := by
    have hfalse : takeTogether false (countFrame :: boundaryActs u.map.active) u = takeAll (countFrame :: boundaryActs u.map.active) u :=
      rfl
    rw [hfalse, takeAll_cons, boundaryActs, List.append_assoc, takeAll_append, takeAll_append]
    rfl
  have hpeer : ∀ f ∈ channels.map (peerStep u.map.active), ∀ t : State, (f t).ring = t.ring := by
    intro f hf t
    obtain ⟨c, -, rfl⟩ := List.mem_map.mp hf
    rw [peerStep_eq]
    rfl
  rw [hsteps, takeAll_eq State.ring hpeer, takeAll_gapStep_ring channels channels_nodup, readyStep_ring]
  · rfl
  intro c _
  have hchan : (readyStep (countFrame u)).chan c = u.chan c := congrArg (·.get c) hchans
  rw [hchan]
  exact hgap c

end Sys2Proof.Machine
end

section
/-! PROOFS. The end of a frame of which every slot has been worked (spec 02, R27, R28, R35, R36), put together. -/

namespace Sys2Proof.Machine

open Sys2Proof

theorem exec_frameBoundary {pulse : Bool} {s : State} (h : s.resetn = true) :
    exec (.frameBoundary pulse) s = .next (frameBoundaryStep pulse s) := congrArg _ (outOfReset_high _ h)

/-- What is not read of the timing unit and the slot is what the boundary's work leaves. -/
theorem frameBoundaryStep_keeps {α : Type} (g : State → α)
    (hg : ∀ (t : State) (u : Timing) (x : SlotPhase), g { t with tim := u, slot := x } = g t) (pulse : Bool) {s : State}
    (hslot : s.slot = .frameDone) (hst : s.tim.st = .locked ∨ s.tim.st = .driving) :
    g (frameBoundaryStep pulse s) = g (boundaryWork s) := by
  rw [frameBoundaryStep, if_pos hslot]
  generalize boundaryWork s = u
  rcases hst with hst | hst
  · rw [hst]
    change g (lockedBoundary pulse u) = g u
    unfold lockedBoundary
    exact ite_reads (hg u _ _) (ite_reads (hg u _ _) (hg u _ _))
  · rw [hst]
    exact hg u _ _

/-- Slot 0 as it begins after a boundary (R9). -/
def State.firstSlot (s : State) : SlotPhase :=
  .inSlot { number := 0, entry := s.map.active.entry 0, work := (s.map.active.entry 0).mode, word := none, bits := [] }

/-- The timing unit as the next frame begins (R27). -/
def Timing.nextFrame (t : Timing) (slots : Nat) : Timing := { t with align := t.align.map fun a => a + 11 * slots }

theorem beginNextFrame_eq (s : State) :
    beginNextFrame s = { s with tim := s.tim.nextFrame s.map.active.slots, slot := s.firstSlot } := rfl

/-- The timing unit and the slot after a boundary in DRIVING (R27). -/
theorem frameBoundaryStep_driving {pulse : Bool} {s : State} (hslot : s.slot = .frameDone) (hst : s.tim.st = .driving) :
    frameBoundaryStep pulse s = beginNextFrame (boundaryWork s) := by rw [frameBoundaryStep, if_pos hslot, hst]

theorem frameBoundaryStep_locked {pulse : Bool} {s : State} (hslot : s.slot = .frameDone) (hst : s.tim.st = .locked) :
    frameBoundaryStep pulse s = lockedBoundary pulse (boundaryWork s) := by rw [frameBoundaryStep, if_pos hslot, hst]

/-- The frame length in force after a boundary is that of before it, also where a commit has switched (R48). -/
theorem boundaryWork_slots {s : State} (h : s.map.commit = .pending → s.map.shadow.len = s.map.active.len) :
    (boundaryWork s).map.active.slots = s.map.active.slots := by
  rw [boundaryWork_map]
  split
  · next hp => exact congrArg (fun n : Fin 4 => 8 * (n.val + 1)) (h hp)
  · rfl

/-- Settles O23. -/
theorem frameBoundaryEndsTheFrame : Obligations.FrameBoundaryEndsTheFrame := by
  unfold Obligations.FrameBoundaryEndsTheFrame
  intro pulse s hs hslot hst hlen
  have hkeeps := fun {α : Type} (g : State → α) hg => frameBoundaryStep_keeps (α := α) g hg pulse hslot hst
  have htim := boundaryWork_tim s
  have hslots := boundaryWork_slots hlen
  have hdriving := frameBoundaryStep_driving (pulse := pulse) hslot
  have hlocked := frameBoundaryStep_locked (pulse := pulse) hslot
  have hwithin := boundaryWork_raisedWithin s
  have hev := hkeeps State.ev fun _ _ _ => rfl
  have hframe : ({ frameBoundaryStep pulse s with
      tim := s.tim, slot := s.slot, map := s.map, chans := s.chans, ring := s.ring, ev := s.ev, arb := s.arb } : State) = s := by
    have h' := congrArg (fun t : State => ({ t with slot := s.slot } : State)) (boundaryWork_frame s)
    exact (hkeeps (fun t : State => ({ s.unbounded t with slot := s.slot } : State)) fun _ _ _ => rfl).trans h'
  refine ⟨_, exec_frameBoundary hs, ?_, ?_, fun c hc => ?_, ?_, ?_, hframe, fun hd => ?_, fun hl hp => ?_, fun hl hp hc hb => ?_,
    fun hl hp hc => ?_⟩
  · exact (hkeeps State.map fun _ _ _ => rfl).trans (boundaryWork_map s)
  · have hflag := boundaryWork_flag_other (x := .commitDone) (by simp) s
    rw [timed_flag_other (by simp), decide_eq_true rfl, Bool.true_and] at hflag
    rw [isPending_eq_flag rfl, isPending_eq_flag rfl]
    exact (hkeeps (State.flag · .commitDone) fun _ _ _ => rfl).trans hflag
  · rw [isPending_eq_flag rfl] at hc ⊢
    exact boundaryWork_peerChange ((hkeeps (State.flag · (.peerChange c)) fun _ _ _ => rfl).symm.trans hc)
  · unfold raisedWithin at hwithin ⊢
    rw [hev]
    exact hwithin
  · rw [hkeeps State.ring fun _ _ _ => rfl]
    exact boundaryWork_entries s
  · rw [hdriving hd]
    generalize boundaryWork s = u at htim hslots
    rw [beginNextFrame_eq, hslots, htim]
    exact ⟨rfl, rfl⟩
  · rw [hlocked hl, lockedBoundary, if_pos hp]
    generalize boundaryWork s = u at htim hslots
    rw [beginNextFrame_eq]
    dsimp only
    rw [hslots, htim]
    exact ⟨rfl, rfl⟩
  · have hbridge : ((boundaryWork s).tim.cand.isSome && !(boundaryWork s).tim.bridge) = true := by
      rw [htim]
      dsimp only
      rw [hc, hb]
      rfl
    rw [hlocked hl, lockedBoundary, if_neg (by rw [hp]; exact Bool.false_ne_true), if_pos hbridge]
    generalize boundaryWork s = u at htim hslots
    rw [beginNextFrame_eq]
    dsimp only
    rw [hslots, htim]
    exact ⟨rfl, rfl⟩
  · have hnone : ¬ ((boundaryWork s).tim.cand.isSome && !(boundaryWork s).tim.bridge) = true := by
      rw [htim]
      dsimp only
      rcases hc with hc | hb
      · rw [hc]; exact Bool.false_ne_true
      · rw [hb, Bool.not_true, Bool.and_false]; exact Bool.false_ne_true
    rw [hlocked hl, lockedBoundary, if_neg (by rw [hp]; exact Bool.false_ne_true), if_neg hnone]
    generalize boundaryWork s = u at htim
    unfold enterFlywheel
    rw [htim]
    exact ⟨rfl, rfl⟩

/-! ## The timers of a channel -/

/-- The refresh and hold timers of a boundary, field by field (R147, R154). -/
theorem timed_eq (x : Channel) : x.timed = { x with fl := { x.fl with
    refresh := if x.fl.asserted then (if x.cfg.p ≤ x.fl.refresh + 1 then 0 else x.fl.refresh + 1) else x.fl.refresh
    pauseOwed := x.fl.pauseOwed || (x.fl.asserted && decide (x.cfg.p ≤ x.fl.refresh + 1))
    held := x.fl.held && !decide (x.cfg.h ≤ x.fl.holdCnt + 1)
    holdCnt := if x.fl.held then (if x.cfg.h ≤ x.fl.holdCnt + 1 then 0 else x.fl.holdCnt + 1) else x.fl.holdCnt } } := by
  have hrefresh : x.refreshed = { x with fl := { x.fl with
      refresh := if x.fl.asserted then (if x.cfg.p ≤ x.fl.refresh + 1 then 0 else x.fl.refresh + 1) else x.fl.refresh
      pauseOwed := x.fl.pauseOwed || (x.fl.asserted && decide (x.cfg.p ≤ x.fl.refresh + 1)) } } := by
    unfold Channel.refreshed
    by_cases ha : x.fl.asserted = true
    · by_cases hp : x.cfg.p ≤ x.fl.refresh + 1 <;> simp [ha, hp]
    · have hnone : (x.fl.asserted && decide (x.cfg.p ≤ x.fl.refresh + 1)) = false := by simp [ha]
      rw [if_neg ha, if_neg ha, hnone, Bool.or_false]
  rw [Channel.timed, hrefresh]
  unfold Channel.holdStepped
  by_cases hh : x.fl.held = true
  · by_cases hc : x.cfg.h ≤ x.fl.holdCnt + 1 <;> simp [hh, hc]
  · have hgo : (x.fl.held && !decide (x.cfg.h ≤ x.fl.holdCnt + 1)) = x.fl.held := by simp [hh]
    rw [if_neg hh]
    dsimp only
    rw [hgo, if_neg hh]

theorem timed_gapDue (x : Channel) : gapDue x.timed = gapDue x := by rw [timed_eq]; rfl

/-- The receive unit after the gap count of a boundary (R119, R120). -/
theorem gapStepped_rx (x : Channel) :
    (x.rx.st = .idle → x.gapStepped.rx = { x.rx with seen := false }) ∧
    (x.rx.st ≠ .idle → x.rx.seen = true → x.gapStepped.rx = { x.rx with gap := 0, seen := false }) ∧
    (x.rx.st ≠ .idle → x.rx.seen = false → x.fl.asserted = true → x.gapStepped.rx = x.rx) ∧
    (x.rx.st ≠ .idle → x.rx.seen = false → x.fl.asserted = false → gapDue x = false →
      x.gapStepped.rx = { x.rx with gap := min 255 (x.rx.gap + 1) }) ∧
    (gapDue x = true → x.gapStepped.rx = endedUnit x.rx) := by
  have hprog : x.rx.st ≠ .idle → x.rx.st.inProgress = true := fun h => by
    cases hs : x.rx.st <;> simp_all [RxState.inProgress]
  refine ⟨fun hst => ?_, fun hst hseen => ?_, fun hst hseen hass => ?_, fun hst hseen hass hdue => ?_, fun hdue => ?_⟩
  · simp [Channel.gapStepped, hst, RxState.inProgress]
  · simp [Channel.gapStepped, hprog hst, hseen]
  · simp [Channel.gapStepped, hprog hst, hseen, hass]
  · simp [Channel.gapStepped, hprog hst, hseen, hass, hdue, gapNext]
  · rw [gapStepped_of_due hdue]

theorem timed_rx (x : Channel) : x.timed.rx = x.rx := by rw [timed_eq]

theorem timed_asserted (x : Channel) : x.timed.fl.asserted = x.fl.asserted := by rw [timed_eq]

theorem timed_tx (x : Channel) : x.timed.tx = x.tx := by rw [timed_eq]

theorem timed_chanPeer (x : Channel) : x.timed.peer = x.peer := by rw [timed_eq]

/-- The presence of a judged peer (R73). -/
theorem judge_eq (p : Peer) : p.judge = if p.mark then { p with present := true, silence := 0 }
    else { p with silence := min 8 (p.silence + 1), present := p.present && decide (p.silence + 1 < 8) } := by
  have h : decide (min 8 (p.silence + 1) < 8) = decide (p.silence + 1 < 8) := decide_eq_decide.mpr (by omega)
  unfold Peer.judge
  dsimp only
  rw [h]
/-- The refresh and hold counters of a boundary, by the cases of R147 and R154. -/
theorem timed_fl {x y : Channel} (h : y.fl = x.timed.fl) :
    (x.fl.asserted = true → x.fl.refresh + 1 < x.cfg.p → y.fl.refresh = x.fl.refresh + 1 ∧ y.fl.pauseOwed = x.fl.pauseOwed) ∧
    (x.fl.asserted = true → x.cfg.p ≤ x.fl.refresh + 1 → y.fl.refresh = 0 ∧ y.fl.pauseOwed = true) ∧
    (x.fl.asserted = false → y.fl.refresh = x.fl.refresh ∧ y.fl.pauseOwed = x.fl.pauseOwed) ∧
    (x.fl.held = true → x.fl.holdCnt + 1 < x.cfg.h → y.fl.held = true ∧ y.fl.holdCnt = x.fl.holdCnt + 1) ∧
    (x.fl.held = true → x.cfg.h ≤ x.fl.holdCnt + 1 → y.fl.held = false ∧ y.fl.holdCnt = 0) ∧
    (x.fl.held = false → y.fl.held = false ∧ y.fl.holdCnt = x.fl.holdCnt) ∧
    y.fl = { x.fl with refresh := y.fl.refresh, pauseOwed := y.fl.pauseOwed, held := y.fl.held, holdCnt := y.fl.holdCnt } := by
  rw [h, timed_eq]
  refine ⟨fun ha hp => ?_, fun ha hp => ?_, fun ha => ?_, fun hh hc => ?_, fun hh hc => ?_, fun hh => ?_, rfl⟩
  · have hp' := Nat.not_le.mpr hp
    simp [ha, hp']
  · simp [ha, hp]
  · simp [ha]
  · have hc' := Nat.not_le.mpr hc
    simp [hh, hc']
  · simp [hh, hc]
  · simp [hh]

/-- With no commit pending the presence of a peer is judged where ACTIVE gives an RX slot (R73). -/
theorem peerStepped_peer (x : Channel) :
    ((x.peerStepped true).peer.mark = false ∧
      (x.peer.mark = true → (x.peerStepped true).peer.present = true ∧ (x.peerStepped true).peer.silence = 0) ∧
      (x.peer.mark = false → (x.peerStepped true).peer.silence = min 8 (x.peer.silence + 1) ∧
        (x.peerStepped true).peer.present = (x.peer.present && decide (x.peer.silence + 1 < 8)))) ∧
    ((x.peerStepped false).peer.present = x.peer.present ∧ (x.peerStepped false).peer.silence = x.peer.silence) := by
  refine ⟨⟨rfl, fun hm => ?_, fun hm => ?_⟩, rfl, rfl⟩
  · simp [Channel.peerStepped, judge_eq, hm]
  · simp [Channel.peerStepped, judge_eq, hm]

/-- A gap that is not due (R120). -/
theorem gapDue_eq_false {x : Channel} (h : x.rx.st = .idle ∨ x.rx.seen = true ∨ x.fl.asserted = true ∨ x.cfg.gapLimit = 0 ∨
    min 255 (x.rx.gap + 1) < x.cfg.gapLimit) : gapDue x = false := by
  rw [← Bool.not_eq_true, gapDue_iff]
  rintro ⟨hst, hseen, hass, hlim, hgap⟩
  rcases h with h | h | h | h | h
  · exact hst h
  · exact Bool.false_ne_true (hseen.symm.trans h)
  · exact Bool.false_ne_true (hass.symm.trans h)
  · exact hlim h
  · omega

/-- HOLD_EXPIRED of a channel is raised exactly where its remote pause ends at the boundary (R154). -/
theorem holdDue_eq (x : Channel) : holdDue x = (x.fl.held && !x.timed.fl.held) := by
  rw [timed_eq, holdDue]
  cases x.fl.held <;> simp

/-- The receive unit of a channel over a boundary with no commit pending (R119, R120). -/
theorem timed_gapStepped_rx (x : Channel) :
    (x.rx.st = .idle → x.timed.gapStepped.rx = { x.rx with seen := false }) ∧
    (x.rx.st ≠ .idle → x.rx.seen = true → x.timed.gapStepped.rx = { x.rx with gap := 0, seen := false }) ∧
    (x.rx.st ≠ .idle → x.rx.seen = false → x.fl.asserted = true → x.timed.gapStepped.rx = x.rx) ∧
    (x.rx.st ≠ .idle → x.rx.seen = false → x.fl.asserted = false → gapDue x = false →
      x.timed.gapStepped.rx = { x.rx with gap := min 255 (x.rx.gap + 1) }) ∧
    (gapDue x = true → x.timed.gapStepped.rx = endedUnit x.rx) := by
  have h := gapStepped_rx x.timed
  rwa [timed_gapDue, timed_rx, timed_asserted] at h

theorem idle_ne_pending {m : MapUnit} (h : m.commit = .idle) : m.commit ≠ .pending := by rw [h]; decide

/-- PEER_CHANGE of a channel is raised exactly where the judgement turned its presence, with no commit pending (R73). -/
theorem boundaryWork_peerChange_idle {s : State} (h : s.map.commit ≠ .pending) (c : Chan) : (boundaryWork s).flag (.peerChange c) =
    (s.flag (.peerChange c) || decide (((boundaryWork s).chan c).peer.present ≠ (s.chan c).peer.present)) := by
  have hv := boundaryWork_presence_idle h c
  have hflag := congrArg Prod.fst hv
  have hpeer := congrArg (fun v => v.2.2.present) hv
  simp only [State.presence, presenceJudged, judges, Bool.and_self] at hflag hpeer
  rw [hflag, hpeer]
  cases s.map.active.gives .rx c <;> simp [Peer.turns]

/-- Settles O24: the boundary's work, channel by channel. -/
theorem frameBoundaryStepsTimers : Obligations.FrameBoundaryStepsTimers := by
  unfold Obligations.FrameBoundaryStepsTimers
  intro pulse s hs hslot hst
  have hkeeps := fun {α : Type} (g : State → α) hg => frameBoundaryStep_keeps (α := α) g hg pulse hslot hst
  refine ⟨_, exec_frameBoundary hs, fun c => ?_, fun hidle hgap => ?_⟩
  · have hchan : (frameBoundaryStep pulse s).chan c = (boundaryWork s).chan c := hkeeps (State.chan · c) fun _ _ _ => rfl
    have hpeerChange : (frameBoundaryStep pulse s).isPending (.peerChange c) = (boundaryWork s).flag (.peerChange c) := by
      rw [isPending_eq_flag rfl]
      exact hkeeps (State.flag · (.peerChange c)) fun _ _ _ => rfl
    have hholdExpired : (frameBoundaryStep pulse s).isPending (.holdExpired c) = (boundaryWork s).flag (.holdExpired c) := by
      rw [isPending_eq_flag rfl]
      exact hkeeps (State.flag · (.holdExpired c)) fun _ _ _ => rfl
    have hidle := fun h : s.map.commit = .idle => boundaryWork_chan_idle (idle_ne_pending h) c
    have hturns := fun h : s.map.commit = .idle => boundaryWork_peerChange_idle (idle_ne_pending h) c
    have hexpired := boundaryWork_flag_other (x := .holdExpired c) (by simp) s
    rw [timed_flag_holdExpired, decide_eq_false (by simp), Bool.false_and, Bool.or_false, holdDue_eq] at hexpired
    have hset := boundaryWork_settings c s
    rw [hchan, hpeerChange, hholdExpired, isPending_eq_flag rfl, isPending_eq_flag rfl]
    generalize boundaryWork s = u at hidle hturns hset hexpired
    simp only [Channel.settings, Prod.mk.injEq] at hset
    obtain ⟨hcfg, hsticky, hfl, hheld⟩ := hset
    obtain ⟨h1, h2, h3, h4, h5, h6, h7⟩ := timed_fl hfl
    obtain ⟨hrxIdle, hrxSeen, hrxPaused, hrxCounts, hrxEnds⟩ := timed_gapStepped_rx (s.chan c)
    have hrx := fun h => congrArg Channel.rx (hidle h)
    rw [← hfl] at hexpired
    refine ⟨h1, h2, h3, h4, h5, h6, h7, ?_, ?_, ?_, fun h => ?_, fun h hst => ?_, fun h hg => ?_, fun h hg => ?_, hturns, hexpired,
      fun h hst hseen => ?_, fun h hst hseen hass => ?_, fun h hst hseen hass hlim => ?_, fun h hst hseen hass hlim hgap => ?_⟩
    · rw [hcfg, timed_eq]
    · rw [hsticky, timed_eq]
    · rw [hheld, timed_eq]
    · rw [hidle h]
      exact (gapStepped_settings _).2.trans (timed_tx _)
    · exact (hrx h).trans (hrxIdle hst)
    · have hp := (peerStepped_peer (s.chan c).timed.gapStepped).1
      rw [gapStepped_peer, timed_chanPeer] at hp
      rw [hidle h, hg]
      exact hp
    · have hp := (peerStepped_peer (s.chan c).timed.gapStepped).2
      rw [gapStepped_peer, timed_chanPeer] at hp
      rw [hidle h, hg]
      exact hp
    · exact (hrx h).trans (hrxSeen hst hseen)
    · exact (hrx h).trans (hrxPaused hst hseen hass)
    · exact (hrx h).trans (hrxCounts hst hseen hass (gapDue_eq_false (.inr (.inr (.inr hlim)))))
    · exact (hrx h).trans (hrxEnds ((gapDue_iff _).mpr ⟨hst, hseen, hass, hlim, hgap⟩))
  · rw [hkeeps State.ring fun _ _ _ => rfl]
    refine boundaryWork_ring_quiet (idle_ne_pending hidle) fun c => ?_
    rw [timed_chan, timed_gapDue]
    exact gapDue_eq_false (hgap c)

end Sys2Proof.Machine
end

section
/-! PROOFS. The end of an RX slot (spec 01, R12, R13): marks, flow words, corrupt words and ABORT (06, R109, R112 to R114, R117; 08,
R151, R152). -/

namespace Sys2Proof.Machine

open Sys2Proof

/-! ## States alike in what flow control reads -/

/-- Two states alike in the levels, the flow unit and the held count of every channel, and in the pool. -/
structure SameFlow (s u : State) : Prop where
  cfg : ∀ d, (u.chan d).cfg = (s.chan d).cfg
  fl : ∀ d, (u.chan d).fl = (s.chan d).fl
  held : ∀ d, (u.chan d).held = (s.chan d).held
  pool : u.pool = s.pool

theorem SameFlow.setChan {s u : State} {c : Chan} {x : Channel} (hchans : u.chans = (s.setChan c x).chans) (hpool : u.pool = s.pool)
    (hcfg : x.cfg = (s.chan c).cfg) (hfl : x.fl = (s.chan c).fl) (hheld : x.held = (s.chan c).held) : SameFlow s u := by
  have hchan : ∀ d, u.chan d = (s.setChan c x).chan d := fun d => congrArg (·.get d) hchans
  refine ⟨fun d => ?_, fun d => ?_, fun d => ?_, hpool⟩
  · rw [hchan]; exact setChan_proj Channel.cfg hcfg d
  · rw [hchan]; exact setChan_proj Channel.fl hfl d
  · rw [hchan]; exact setChan_proj Channel.held hheld d

theorem SameFlow.causesLaw {s u : State} (h : SameFlow s u) (hs : s.causesLaw) : u.causesLaw where
  low := h.pool ▸ hs.low
  flow d := by
    have hflow := hs.flow d
    refine ⟨?_, ?_, ?_⟩
    · rw [h.fl]; exact hflow.pause
    · rw [h.fl]; exact hflow.resume
    · rw [h.fl, h.pool]; exact hflow.pool
  quota d := by
    have hquota := hs.quota d
    refine ⟨?_, ?_⟩
    · rw [h.cfg, h.held, h.fl]; exact hquota.on
    · rw [h.cfg, h.held, h.fl]; exact hquota.off

/-- Blocks freed in a state alike move the flow units down or not at all. -/
theorem SameFlow.freed {s u t : State} {c : Chan} {first : Option BlockNo} (h : SameFlow s u)
    (ht : ∀ d, (t.chan d).fl = ((freeChain c first u).chan d).fl ∧ (t.chan d).cfg = ((freeChain c first u).chan d).cfg ∧
      (t.chan d).held = ((freeChain c first u).chan d).held) : s.pauseLaw → FlowsMove false [] s t := fun hp => by
  obtain ⟨hcauses, hkept⟩ := (pauseLaw_iff s).mp hp
  exact (freeChain_flowsMove (h.causesLaw hcauses) fun d => leans_congr (h.cfg d) (h.fl d) (leans_of_kept (hkept d))).congr
    (fun d => (h.fl d).symm) (fun d => (ht d).1) (fun d => (ht d).2.1) fun d => (ht d).2.2

/-- A block granted in a state alike moves the flow units up or not at all. -/
theorem SameFlow.granted {s u t : State} {c : Chan} {b : BlockNo} {rest : List BlockNo} (h : SameFlow s u)
    (hfree : s.pool.free = b :: rest)
    (ht : ∀ d, (t.chan d).fl = ((grant c b rest u).chan d).fl ∧ (t.chan d).cfg = ((grant c b rest u).chan d).cfg ∧
      (t.chan d).held = ((grant c b rest u).chan d).held) : s.pauseLaw → FlowsMove true [] s t := fun hp => by
  obtain ⟨hcauses, hkept⟩ := (pauseLaw_iff s).mp hp
  exact (grant_flowsMove (h.causesLaw hcauses) (fun d => leans_congr (h.cfg d) (h.fl d) (leans_of_kept (hkept d)))
    (h.pool.symm ▸ hfree)).congr (fun d => (h.fl d).symm) (fun d => (ht d).1) (fun d => (ht d).2.1) fun d => (ht d).2.2

/-! ## A discard (R117) -/

/-- What is not the receive unit, the flow unit or the held count of a channel stays. -/
theorem discardMsg_chan_frame (c d : Chan) (s : State) :
    { (discardMsg c s).chan d with fl := (s.chan d).fl, held := (s.chan d).held, rx := (s.chan d).rx } = s.chan d := by
  have hfree := congrArg (fun x : Channel => { x with rx := (s.chan d).rx }) (freeChain_chan_frame c d (s.chan c).rx.first s)
  by_cases hr : (s.chan c).rx.reserves = true
  · rw [discardMsg_reserves hr, chan_setChan]
    split
    · next hd => subst hd; exact hfree
    · exact hfree
  · rw [discardMsg, ← reserves_eq_holdsReservation, if_neg hr]
    split
    · rw [setRx_eq, chan_setChan]
      split
      · next hd => subst hd; rfl
      · rfl
    · rfl

theorem discardMsg_chan_other {c d : Chan} (h : d ≠ c) (s : State) :
    { (discardMsg c s).chan d with fl := (s.chan d).fl } = s.chan d := by
  by_cases hr : (s.chan c).rx.reserves = true
  · have hheld := freeChain_held c d (s.chan c).rx.first s
    rw [if_neg h] at hheld
    have hframe := freeChain_chan_frame c d (s.chan c).rx.first s
    rw [discardMsg_reserves hr, chan_setChan, if_neg h]
    rw [← hheld] at hframe
    exact hframe
  · rw [discardMsg, ← reserves_eq_holdsReservation, if_neg hr]
    split
    · rw [setRx_eq, chan_setChan, if_neg h]
    · rfl

theorem discardMsg_frame (c : Chan) (s : State) :
    { discardMsg c s with chans := s.chans, pool := s.pool, ring := s.ring } = s := by
  by_cases hr : (s.chan c).rx.reserves = true
  · rw [discardMsg_reserves hr]
    have h := congrArg (fun t : State => ({ t with ring := s.ring } : State)) (freeChain_frame c (s.chan c).rx.first s)
    exact h
  · rw [discardMsg, ← reserves_eq_holdsReservation, if_neg hr]
    split <;> rfl

/-- A discard where no reservation is held touches the receive unit of its channel alone. -/
theorem discardMsg_bare {c : Chan} {s : State} (h : (s.chan c).rx.reserves = false) :
    discardMsg c s = s.setChan c { s.chan c with rx := if (s.chan c).rx.st = .idle then (s.chan c).rx else (s.chan c).rx.idled } := by
  cases hst : (s.chan c).rx.st with
  | idle => rw [discardMsg_idle c s hst, if_pos rfl]; exact (setChan_self s c).symm
  | starved => rw [discardMsg_starved c s hst, if_neg (by decide)]
  | opened => simp [RxUnit.reserves, hst] at h
  | truncating => simp [RxUnit.reserves, hst] at h
  | overrun => simp [RxUnit.reserves, hst] at h

/-- The receive unit of an idle channel stays and any other is idled. -/
theorem discardMsg_rx_same (c : Chan) (s : State) : ((discardMsg c s).chan c).rx =
    if (s.chan c).rx.st = .idle then (s.chan c).rx else (s.chan c).rx.idled := by
  by_cases hr : (s.chan c).rx.reserves = true
  · have hst : (s.chan c).rx.st ≠ .idle := fun e => by simp [RxUnit.reserves, e] at hr
    rw [discardMsg_rx hr, if_pos rfl, if_neg hst]
  · rw [discardMsg_bare (Bool.not_eq_true _ |>.mp hr), chan_setChan_same]

theorem discardMsg_ring_eq (c : Chan) (s : State) : (discardMsg c s).ring =
    { s.ring with reserved := if (s.chan c).rx.reserves then s.ring.reserved - 1 else s.ring.reserved } := by
  by_cases hr : (s.chan c).rx.reserves = true
  · rw [discardMsg_ring hr, if_pos hr]
  · rw [discardMsg_bare (Bool.not_eq_true _ |>.mp hr), if_neg hr]
    rfl

/-- The blocks of a discarded message go back to the pool (R103). -/
theorem discardMsg_blocks {c : Chan} {s : State} (h : (s.chan c).rx.reserves = true) :
    (discardMsg c s).pool.free = s.pool.free ++ s.openChain c ∧
    ((discardMsg c s).chan c).held = (s.chan c).held - (s.openChain c).length ∧
    (∀ b, (discardMsg c s).pool.links.get b = if b ∈ s.openChain c then none else s.pool.links.get b) ∧
    { (discardMsg c s).pool with free := s.pool.free, links := s.pool.links, low := s.pool.low } = s.pool := by
  have hheld := discardMsg_held_count h c
  rw [if_pos rfl] at hheld
  have hpool : (discardMsg c s).pool = (freeChain c (s.chan c).rx.first s).pool := by rw [discardMsg_reserves h]; rfl
  rw [hpool]
  exact ⟨freeChain_free .., hheld, freeChain_links _ _ s, freeChain_pool_frame ..⟩

/-- What flow control reads after a discard is what a freed chain leaves. -/
theorem discardMsg_frees (c : Chan) (s : State) : ∃ first, ∀ d,
    ((discardMsg c s).chan d).fl = ((freeChain c first s).chan d).fl ∧
    ((discardMsg c s).chan d).cfg = ((freeChain c first s).chan d).cfg ∧
    ((discardMsg c s).chan d).held = ((freeChain c first s).chan d).held := by
  by_cases hr : (s.chan c).rx.reserves = true
  · refine ⟨(s.chan c).rx.first, fun d => ?_⟩
    rw [discardMsg_reserves hr, chan_setChan]
    split
    · next hd => subst hd; exact ⟨rfl, rfl, rfl⟩
    · exact ⟨rfl, rfl, rfl⟩
  · refine ⟨none, fun d => ?_⟩
    rw [freeChain_nil c none s rfl, discardMsg_bare (Bool.not_eq_true _ |>.mp hr)]
    generalize (if (s.chan c).rx.st = .idle then (s.chan c).rx else (s.chan c).rx.idled) = u
    have hproj := fun {α : Type} (g : Channel → α) hg => setChan_proj (s := s) (c := c) (x := { s.chan c with rx := u }) g hg d
    exact ⟨hproj Channel.fl rfl, hproj Channel.cfg rfl, hproj Channel.held rfl⟩

/-! ## The end of an RX slot (R8, R12, R13) -/

/-- The slot that follows slot n, or the frame with every slot worked (R8). -/
def State.slotAfter (s : State) (n : Nat) : SlotPhase :=
  if n + 1 < s.map.active.slots then .inSlot (s.entrySlot (n + 1)) else .frameDone

theorem advanceSlot_eq (n : Nat) (s : State) : advanceSlot n s = { s with slot := s.slotAfter n } := by
  unfold advanceSlot State.slotAfter
  split <;> rfl

theorem slotBlind_map : SlotBlind State.map where
  slot _ _ := rfl
  chans _ _ := rfl
  blocks _ _ := rfl
  ring _ _ := rfl
  arb _ _ := rfl
  dropped _ _ _ := rfl
  shutdown _ _ := rfl
  starved _ _ := rfl

theorem slotAfter_congr {s u : State} (h : u.map = s.map) (n : Nat) : u.slotAfter n = s.slotAfter n := by
  unfold State.slotAfter State.entrySlot
  rw [h]

/-- The class of the word in a slot that has had its eleven bits (R12). -/
def Slot.heard (x : Slot) : RxClass := classify (wordOfBits x.bits)

/-- An RX slot with its eleven bits delivers its word, and the next slot begins. -/
theorem exec_rxWord_over {x : Slot} {s : State} (hs : s.resetn = true) (hslot : s.slot = .inSlot x) (hwork : x.work = .rx)
    (hbits : x.bits.length = 11) :
    exec .rxWord s = .next { deliver x.entry.chan x.heard s with slot := s.slotAfter x.number } := by
  have hexec : exec .rxWord s = .next (rxWordStep s) := congrArg _ (outOfReset_high _ hs)
  have hstep : rxWordStep s = advanceSlot x.number (deliver x.entry.chan x.heard s) := by
    rw [rxWordStep, hslot]
    exact if_pos (by rw [decide_eq_true hwork, decide_eq_true hbits]; rfl)
  rw [hexec, hstep, advanceSlot_eq, slotAfter_congr (slotBlind_map.deliver ..)]

/-- A channel of which a word that is not SILENT has been heard (R73). -/
def Channel.marked (x : Channel) : Channel := { x with peer := { x.peer with mark := true } }

/-- The state with that mark. -/
def State.hears (s : State) (c : Chan) : State := s.setChan c (s.chan c).marked

theorem hears_chan (s : State) (c : Chan) : (s.hears c).chan c = (s.chan c).marked := chan_setChan_same ..

theorem hears_setFl (s : State) (c : Chan) (u : FlowUnit) : (s.hears c).setFl c u = s.setChan c { (s.chan c).marked with fl := u } := by
  rw [setFl_eq, hears_chan, State.hears, setChan_setChan]

theorem hears_setRx (s : State) (c : Chan) (u : RxUnit) : (s.hears c).setRx c u = s.setChan c { (s.chan c).marked with rx := u } := by
  rw [setRx_eq, hears_chan, State.hears, setChan_setChan]

theorem hears_setSticky (s : State) (c : Chan) (u : Sticky) :
    (s.hears c).setSticky c u = s.setChan c { (s.chan c).marked with sticky := u } := by
  rw [setSticky_eq, hears_chan, State.hears, setChan_setChan]

theorem deliver_idle (c : Chan) (s : State) : deliver c .idle s = s.setChan c (s.chan c).marked := rfl

theorem deliver_unknownCtrl (c : Chan) (s : State) : deliver c .unknownCtrl s =
    s.setChan c { (s.chan c).marked with sticky := { (s.chan c).sticky with unknownCtrl := true } } := by
  have h : deliver c .unknownCtrl s = (s.hears c).setSticky c { ((s.hears c).chan c).sticky with unknownCtrl := true } := rfl
  rw [h, hears_setSticky, hears_chan]
  rfl

theorem deliver_pause (c : Chan) (s : State) : deliver c .pause s = s.setChan c
    (if (s.chan c).cfg.fc then { (s.chan c).marked with fl := { (s.chan c).fl with held := true, holdCnt := 0 } }
      else (s.chan c).marked) := by
  have h : deliver c .pause s = if (s.chan c).cfg.fc then (s.hears c).setFl c { (s.chan c).fl with held := true, holdCnt := 0 }
      else s.hears c := by
    change takePause c (s.hears c) = _
    rw [takePause, hears_chan]
    rfl
  rw [h, hears_setFl]
  split <;> rfl

theorem deliver_resume (c : Chan) (s : State) : deliver c .resume s = s.setChan c
    (if (s.chan c).cfg.fc && (s.chan c).fl.held
      then { (s.chan c).marked with fl := { (s.chan c).fl with held := false, holdCnt := 0 } } else (s.chan c).marked) := by
  have h : deliver c .resume s = if (s.chan c).cfg.fc && (s.chan c).fl.held
      then (s.hears c).setFl c { (s.chan c).fl with held := false, holdCnt := 0 } else s.hears c := by
    change takeResume c (s.hears c) = _
    rw [takeResume, hears_chan]
    rfl
  rw [h, hears_setFl]
  split <;> rfl

/-- A word that changes one channel alone. -/
theorem delivered_chan {c : Chan} {y : Channel} {s t : State} {x : SlotPhase} (h : t = s.setChan c y) :
    ({ t with slot := x } : State).chan c = y ∧ onlyChannel c s { t with slot := x } ∧
    ({ { t with slot := x } with slot := s.slot, chans := s.chans } : State) = s := by
  subst h
  exact ⟨chan_setChan_same .., onlyChannel_setChan rfl, rfl⟩

/-- Settles O37. -/
theorem rxSlotMarksAndFlowWords : Obligations.RxSlotMarksAndFlowWords := by
  unfold Obligations.RxSlotMarksAndFlowWords
  intro x s hs hslot hwork hbits c y marked k
  refine ⟨_, exec_rxWord_over hs hslot hwork hbits, rfl, fun hk => ?_, fun hk => ?_, fun hk => ?_, fun hk => ?_, fun hk => ?_,
    fun hk => ?_⟩
  · rw [show x.heard = .silent from hk]
    rfl
  · rcases hk with hk | hk | hk | hk
    · rw [show x.heard = .idle from hk]
      exact (delivered_chan (deliver_idle c s)).2
    · rw [show x.heard = .unknownCtrl from hk]
      exact (delivered_chan (deliver_unknownCtrl c s)).2
    · rw [show x.heard = .pause from hk]
      exact (delivered_chan (deliver_pause c s)).2
    · rw [show x.heard = .resume from hk]
      exact (delivered_chan (deliver_resume c s)).2
  · rw [show x.heard = .idle from hk]
    exact (delivered_chan (deliver_idle c s)).1
  · rw [show x.heard = .unknownCtrl from hk]
    exact (delivered_chan (deliver_unknownCtrl c s)).1
  · rw [show x.heard = .pause from hk]
    exact (delivered_chan (deliver_pause c s)).1
  · rw [show x.heard = .resume from hk]
    exact (delivered_chan (deliver_resume c s)).1

end Sys2Proof.Machine
end

section
/-! PROOFS. The words of a message at the end of an RX slot (spec 06, R109 to R117). -/

namespace Sys2Proof.Machine

open Sys2Proof

/-! ## What each word leaves of the receive unit -/

/-- With rx_enable 0 a word of a message only marks the frame (R109). -/
theorem deliver_disabled {c : Chan} {k : RxClass} {s : State} (h : (s.chan c).cfg.rx = false) (hs : k ≠ .silent) (hi : k ≠ .idle)
    (hp : k ≠ .pause) (hr : k ≠ .resume) (hu : k ≠ .unknownCtrl) : deliver c k s = s.setChan c (s.chan c).marked := by
  have hrx : ¬ ((s.hears c).chan c).cfg.rx = true := by rw [hears_chan]; exact Bool.eq_false_iff.mp h
  cases k with
  | silent => exact absurd rfl hs
  | idle => exact absurd rfl hi
  | pause => exact absurd rfl hp
  | resume => exact absurd rfl hr
  | unknownCtrl => exact absurd rfl hu
  | corrupt => exact if_neg hrx
  | data b => exact if_neg hrx
  | last b => exact if_neg hrx
  | abort => exact if_neg hrx

/-- A channel that has heard a message word with rx_enable 1 (R73, R119). -/
def Channel.attends (x : Channel) : Channel := { x.marked with rx := { x.rx with seen := true } }

def State.attends (s : State) (c : Chan) : State := s.setChan c (s.chan c).attends

theorem attends_chan (s : State) (c : Chan) : (s.attends c).chan c = (s.chan c).attends := chan_setChan_same ..

theorem takeMessageWord_enabled {c : Chan} {b : Byte} {last : Bool} {s : State} (h : (s.chan c).cfg.rx = true) :
    takeMessageWord c b last (s.hears c) =
      if last then closeMsg c .ok (takeByte c b (s.attends c)) else takeByte c b (s.attends c) := by
  have hrx : ((s.hears c).chan c).cfg.rx = true := by rw [hears_chan]; exact h
  rw [takeMessageWord, if_pos hrx, hears_setRx, hears_chan]
  rfl

theorem deliver_data {c : Chan} {s : State} (h : (s.chan c).cfg.rx = true) (b : Byte) :
    deliver c (.data b) s = takeByte c b (s.attends c) := takeMessageWord_enabled h

theorem deliver_last {c : Chan} {s : State} (h : (s.chan c).cfg.rx = true) (b : Byte) :
    deliver c (.last b) s = closeMsg c .ok (takeByte c b (s.attends c)) := takeMessageWord_enabled h

theorem inProgress_iff (st : RxState) : st.inProgress = true ↔ st ≠ .idle := by cases st <;> simp [RxState.inProgress]

theorem deliver_corrupt {c : Chan} {s : State} (h : (s.chan c).cfg.rx = true) : deliver c .corrupt s = s.setChan c
    (if (s.chan c).rx.st = .idle then { (s.chan c).marked with sticky := { (s.chan c).sticky with parity := true } }
      else { (s.chan c).marked with rx := { (s.chan c).rx with damaged := true } }) := by
  have hstep : deliver c .corrupt s = if (s.chan c).cfg.rx then
      (if (s.chan c).rx.st.inProgress then (s.hears c).setRx c { (s.chan c).rx with damaged := true }
        else (s.hears c).setSticky c { (s.chan c).sticky with parity := true }) else s.hears c := by
    change takeCorrupt c (s.hears c) = _
    rw [takeCorrupt, hears_chan]
    rfl
  rw [hstep, if_pos h, hears_setRx, hears_setSticky]
  by_cases hst : (s.chan c).rx.st = .idle
  · rw [if_pos hst, if_neg fun hp => (inProgress_iff _).mp hp hst]
  · rw [if_neg hst, if_pos ((inProgress_iff _).mpr hst)]

theorem deliver_abort {c : Chan} {s : State} (h : (s.chan c).cfg.rx = true) : deliver c .abort s = discardMsg c (s.hears c) :=
  if_pos (show ((s.hears c).chan c).cfg.rx = true by rw [hears_chan]; exact h)

/-- A byte that comes in TRUNCATING, OVERRUN or STARVED is discarded (R112). -/
theorem takeByte_discards {c : Chan} {b : Byte} {s : State} (hi : (s.chan c).rx.st ≠ .idle) (ho : (s.chan c).rx.st ≠ .opened) :
    takeByte c b s = s := by
  unfold takeByte
  cases hst : (s.chan c).rx.st with
  | idle => exact absurd hst hi
  | opened => exact absurd hst ho
  | _ => rfl

theorem hears_sameFlow (s : State) (c : Chan) : SameFlow s (s.hears c) := .setChan rfl rfl rfl rfl rfl

theorem attends_sameFlow (s : State) (c : Chan) : SameFlow s (s.attends c) := .setChan rfl rfl rfl rfl rfl

/-- What an ABORT discards (R114, R117). -/
theorem abortDiscards {c : Chan} {s t : State} {p : SlotPhase} (ht : t = { discardMsg c (s.hears c) with slot := p })
    (hexec : ∃ i, exec i s = .next t) (hst : (s.chan c).rx.st ≠ .idle) :
    (t.chan c).rx = (s.chan c).rx.idled ∧
    t.ring = { s.ring with reserved := if (s.chan c).rx.st = .starved then s.ring.reserved else s.ring.reserved - 1 } ∧
    ((s.chan c).rx.st = .starved → t.pool = s.pool ∧ (t.chan c).held = (s.chan c).held ∧ (t.chan c).fl = (s.chan c).fl ∧
      onlyChannel c s t) ∧
    ((s.chan c).rx.st ≠ .starved → t.pool.free = s.pool.free ++ s.openChain c ∧
      (t.chan c).held = (s.chan c).held - (s.openChain c).length ∧
      (∀ b, t.pool.links.get b = if b ∈ s.openChain c then none else s.pool.links.get b) ∧
      { t.pool with free := s.pool.free, links := s.pool.links, low := s.pool.low } = s.pool) ∧
    { t.chan c with rx := (s.chan c).rx, fl := (s.chan c).fl, held := (s.chan c).held } = (s.chan c).marked ∧ flowsFollow [] s t ∧
    (∀ d, d ≠ c → { t.chan d with fl := (s.chan d).fl } = s.chan d) ∧
    { t with slot := s.slot, chans := s.chans, pool := s.pool, ring := s.ring } = s := by
  have hchan : ∀ d, t.chan d = (discardMsg c (s.hears c)).chan d := fun d => by rw [ht]; rfl
  have hown := hears_chan s c
  have hother : ∀ d, d ≠ c → (s.hears c).chan d = s.chan d := fun d hd => chan_setChan_other s _ hd
  have hrx : ((s.hears c).chan c).rx = (s.chan c).rx := by rw [hown]; rfl
  have hopen : (s.hears c).openChain c = s.openChain c := congrArg (fun u : RxUnit => s.pool.chain u.first) hrx
  have hres := reserves_iff hst
  refine ⟨?_, ?_, fun hstarved => ?_, fun hne => ?_, ?_, ?_, fun d hd => ?_, ?_⟩
  · rw [hchan, discardMsg_rx_same, hrx, if_neg hst]
  · have h := discardMsg_ring_eq c (s.hears c)
    rw [hrx] at h
    have hring : t.ring = (discardMsg c (s.hears c)).ring := by rw [ht]
    rw [hring, h]
    by_cases hstarved : (s.chan c).rx.st = .starved
    · rw [if_pos hstarved, if_neg fun hr => hres.mp hr hstarved]; rfl
    · rw [if_neg hstarved, if_pos (hres.mpr hstarved)]; rfl
  · have hbare : discardMsg c (s.hears c) = s.setChan c { (s.chan c).marked with rx := (s.chan c).rx.idled } := by
      rw [discardMsg_starved c (s.hears c) (by rw [hrx]; exact hstarved), hown, State.hears, setChan_setChan]
      rfl
    have hc : t.chan c = { (s.chan c).marked with rx := (s.chan c).rx.idled } := by rw [hchan, hbare, chan_setChan_same]
    rw [hc]
    rw [hbare] at ht
    subst ht
    exact ⟨rfl, rfl, rfl, onlyChannel_setChan rfl⟩
  · have h := discardMsg_blocks (c := c) (s := s.hears c) (by rw [hrx]; exact hres.mpr hne)
    rw [hown, hopen] at h
    have hpool : t.pool = (discardMsg c (s.hears c)).pool := by rw [ht]
    rw [hchan, hpool]
    exact h
  · have h := discardMsg_chan_frame c c (s.hears c)
    rw [hown] at h
    rw [hchan]
    exact h
  · obtain ⟨i, hexec⟩ := hexec
    obtain ⟨first, hfrees⟩ := discardMsg_frees c (s.hears c)
    refine flowsFollow_of hexec fun _ hp => (hears_sameFlow s c).freed (c := c) (first := first) (fun d => ?_) hp
    rw [hchan]
    exact hfrees d
  · have h := discardMsg_chan_other hd (s.hears c)
    rw [hother d hd] at h
    rw [hchan]
    exact h
  · have h := congrArg (fun u : State => ({ u with slot := s.slot, chans := s.chans } : State)) (discardMsg_frame c (s.hears c))
    rw [ht]
    exact h

/-- Settles O38. -/
theorem rxSlotIgnoredCorruptAndAbort : Obligations.RxSlotIgnoredCorruptAndAbort := by
  unfold Obligations.RxSlotIgnoredCorruptAndAbort
  intro x s hs hslot hwork hbits c y marked k
  have hexec := exec_rxWord_over hs hslot hwork hbits
  refine ⟨_, hexec, fun hrx h1 h2 h3 h4 h5 => ?_, fun b hk hrx hi ho => ?_, fun hrx hk hst => ?_, fun hrx hk hst => ?_,
    fun hrx hk hst => ?_, fun hrx hk hst => ?_⟩
  · exact delivered_chan (deliver_disabled hrx h1 h2 h3 h4 h5)
  · rw [show x.heard = .data b from hk]
    refine delivered_chan ((deliver_data hrx b).trans (takeByte_discards ?_ ?_))
    · rw [attends_chan]; exact hi
    · rw [attends_chan]; exact ho
  · rw [show x.heard = .corrupt from hk]
    exact delivered_chan ((deliver_corrupt hrx).trans (by rw [if_neg hst]; rfl))
  · rw [show x.heard = .corrupt from hk]
    exact delivered_chan ((deliver_corrupt hrx).trans (by rw [if_pos hst]; rfl))
  · rw [show x.heard = .abort from hk]
    refine delivered_chan ((deliver_abort hrx).trans (discardMsg_idle c (s.hears c) ?_))
    rw [hears_chan]
    exact hst
  · have hword : deliver x.entry.chan x.heard s = discardMsg c (s.hears c) := by
      rw [show x.heard = .abort from hk]
      exact deliver_abort hrx
    rw [hword] at hexec ⊢
    exact abortDiscards rfl ⟨_, hexec⟩ hst

end Sys2Proof.Machine
end

section
/-! PROOFS. The bytes of a message at the end of an RX slot (spec 06, R102, R103, R110 to R112): what storing one leaves of the
channel, of the pool and of the flow units. -/

namespace Sys2Proof.Machine

open Sys2Proof

/-! ## What the storing of a byte leaves untouched -/

/-- From s to t nothing changed but the pool, of channel c the receive unit, the flow unit and the held count, and of any other
channel the flow unit. -/
structure WordLeaves (c : Chan) (s t : State) : Prop where
  own : { t.chan c with rx := (s.chan c).rx, fl := (s.chan c).fl, held := (s.chan c).held } = s.chan c
  other : ∀ d, d ≠ c → { t.chan d with fl := (s.chan d).fl } = s.chan d
  frame : { t with chans := s.chans, pool := s.pool } = s

theorem WordLeaves.trans {c : Chan} {s t u : State} (h : WordLeaves c s t) (h' : WordLeaves c t u) : WordLeaves c s u where
  own := by
    have hu := congrArg (fun x : Channel => { x with rx := (s.chan c).rx, fl := (s.chan c).fl, held := (s.chan c).held }) h'.own
    exact hu.trans h.own
  other d hd := by
    have hu := congrArg (fun x : Channel => { x with fl := (s.chan d).fl }) (h'.other d hd)
    exact hu.trans (h.other d hd)
  frame := by
    have hu := congrArg (fun x : State => { x with chans := s.chans, pool := s.pool }) h'.frame
    exact hu.trans h.frame

theorem WordLeaves.setRx (c : Chan) (u : RxUnit) (s : State) : WordLeaves c s (s.setRx c u) where
  own := by rw [setRx_eq, chan_setChan_same]
  other d hd := by rw [setRx_eq, chan_setChan_other _ _ hd]
  frame := rfl

theorem WordLeaves.putByte (c : Chan) (k : BlockNo) (b : Byte) (s : State) : WordLeaves c s (putByte c k b s) where
  own := by rw [Machine.putByte, setRx_eq, chan_setChan_same]; rfl
  other d hd := by rw [Machine.putByte, setRx_eq, chan_setChan_other _ _ hd]; rfl
  frame := rfl

theorem WordLeaves.freeChain (c : Chan) (first : Option BlockNo) (s : State) : WordLeaves c s (freeChain c first s) where
  own := by
    have h := congrArg (fun x : Channel => { x with rx := (s.chan c).rx }) (freeChain_chan_frame c c first s)
    exact h
  other d hd := by
    have hframe := freeChain_chan_frame c d first s
    have hheld := freeChain_held c d first s
    rw [if_neg hd] at hheld
    rw [← hheld] at hframe
    exact hframe
  frame := by
    have h := congrArg (fun x : State => { x with chans := s.chans }) (freeChain_frame c first s)
    exact h

theorem WordLeaves.grant (c : Chan) (k : BlockNo) (rest : List BlockNo) (s : State) : WordLeaves c s (grant c k rest s) where
  own := by
    have h := congrArg (fun x : Channel => { x with rx := (s.chan c).rx }) (grant_chan_frame c c k rest s)
    exact h
  other d hd := by
    have hframe := grant_chan_frame c d k rest s
    have hheld := grant_held c d k rest s
    have hrx := grant_rx c d k rest s
    rw [if_neg hd] at hheld hrx
    rw [← hheld, ← hrx] at hframe
    exact hframe
  frame := by
    have h := congrArg (fun x : State => { x with chans := s.chans }) (grant_frame c k rest s)
    exact h

theorem WordLeaves.overrunMsg (c : Chan) (s : State) : WordLeaves c s (overrunMsg c s) :=
  (WordLeaves.freeChain c _ s).trans (.setRx c _ _)

/-- The four ways of a byte in an OPEN message (R111). -/
theorem storeByte_cases (c : Chan) (b : Byte) (s : State) :
    ((s.chan c).cfg.maxLen ≤ (s.chan c).rx.len ∧ storeByte c b s = s.setRx c { (s.chan c).rx with st := .truncating }) ∨
    (∃ k, (s.chan c).rx.cur = some k ∧ storeByte c b s = putByte c k b s) ∨ storeByte c b s = overrunMsg c s ∨
    ∃ m rest, s.pool.free = m :: rest ∧ storeByte c b s = putByte c m b (grant c m rest s) := by
  by_cases hlen : (s.chan c).cfg.maxLen ≤ (s.chan c).rx.len
  · exact .inl ⟨hlen, storeByte_truncates c b s hlen⟩
  rw [Nat.not_le] at hlen
  refine .inr ?_
  by_cases hroom : (s.chan c).rx.cur = none ∨ 32 ≤ (s.chan c).rx.fill
  · refine .inr ?_
    by_cases hrefused : (s.chan c).cfg.quota ≤ (s.chan c).held ∨ s.pool.free = []
    · exact .inl (storeByte_overruns c b s hlen hroom hrefused)
    · rw [not_or, Nat.not_le] at hrefused
      obtain ⟨m, rest, hm⟩ := List.exists_cons_of_ne_nil hrefused.2
      exact .inr ⟨m, rest, hm, storeByte_grants c b s m rest hlen hroom hrefused.1 hm⟩
  · rw [not_or, Nat.not_le] at hroom
    obtain ⟨k, hk⟩ := Option.ne_none_iff_exists'.mp hroom.1
    exact .inl ⟨k, hk, storeByte_stores c b s k hlen hk hroom.2⟩

theorem storeByte_leaves (c : Chan) (b : Byte) (s : State) : WordLeaves c s (storeByte c b s) := by
  rcases storeByte_cases c b s with ⟨-, h⟩ | ⟨k, -, h⟩ | h | ⟨m, rest, -, h⟩
  · rw [h]; exact .setRx c _ s
  · rw [h]; exact .putByte c k b s
  · rw [h]; exact .overrunMsg c s
  · rw [h]; exact (WordLeaves.grant c m rest s).trans (.putByte c m b _)

/-! ## The flow units follow -/

/-- What flow control reads of a channel. -/
def Channel.flowView (x : Channel) : FlowUnit × ChanCfg × Nat := (x.fl, x.cfg, x.held)

theorem flowView_setRx (s : State) (c d : Chan) (u : RxUnit) : ((s.setRx c u).chan d).flowView = (s.chan d).flowView :=
  setChan_proj (x := { s.chan c with rx := u }) Channel.flowView rfl d

theorem flowView_putByte (s : State) (c d : Chan) (k : BlockNo) (b : Byte) :
    ((putByte c k b s).chan d).flowView = (s.chan d).flowView := flowView_setRx (s.writePoolByte k (s.chan c).rx.fill b) c d _

theorem flowView_iff {x y : Channel} : x.flowView = y.flowView ↔ x.fl = y.fl ∧ x.cfg = y.cfg ∧ x.held = y.held := by
  simp only [Channel.flowView, Prod.mk.injEq]

/-- The flow units after a byte that comes in a state alike (R142, R143, R145, R146). -/
theorem storeByte_flows {c : Chan} {b : Byte} {s u t : State} {i : Instr} (hexec : exec i s = .next t) (h : SameFlow s u)
    (ht : ∀ d, t.chan d = (storeByte c b u).chan d) : flowsFollow [] s t := by
  have hview : ∀ v : State, (∀ d, ((storeByte c b u).chan d).flowView = (v.chan d).flowView) → ∀ d,
      (t.chan d).fl = (v.chan d).fl ∧ (t.chan d).cfg = (v.chan d).cfg ∧ (t.chan d).held = (v.chan d).held :=
    fun v hv d => by rw [ht]; exact flowView_iff.mp (hv d)
  rcases storeByte_cases c b u with ⟨-, hcase⟩ | ⟨k, -, hcase⟩ | hcase | ⟨m, rest, hfree, hcase⟩
  · have hv := hview u fun d => by rw [hcase]; exact flowView_setRx ..
    exact flowsFollow_of (up := true) hexec fun _ _ => .of_fl fun d => (hv d).1.trans (h.fl d)
  · have hv := hview u fun d => by rw [hcase]; exact flowView_putByte ..
    exact flowsFollow_of (up := true) hexec fun _ _ => .of_fl fun d => (hv d).1.trans (h.fl d)
  · have hv := hview (freeChain c (u.chan c).rx.first u) fun d => by rw [hcase]; exact flowView_setRx ..
    exact flowsFollow_of hexec fun _ hp => h.freed hv hp
  · have hv := hview (grant c m rest u) fun d => by rw [hcase]; exact flowView_putByte ..
    exact flowsFollow_of hexec fun _ hp => h.granted (h.pool ▸ hfree) hv hp

/-! ## A byte in a granted block (R102) -/

/-- The channel and the pool after a byte in a granted block. -/
theorem putByte_grant {c : Chan} {m : BlockNo} {rest : List BlockNo} {b : Byte} {s t : State} (ht : t = putByte c m b (grant c m rest s)) :
    (t.chan c).rx = { (s.chan c).rx with first := (s.chan c).rx.first.or (some m), cur := some m, fill := 1,
                                         len := (s.chan c).rx.len + 1 } ∧
    (t.chan c).held = (s.chan c).held + 1 ∧ t.pool.free = rest ∧ t.pool.links = linkedTo s.pool.links (s.chan c).rx.cur m ∧
    t.pool.mem = Memory.write s.pool.mem (32 * m.val) b ∧
    { t.pool with free := s.pool.free, links := s.pool.links, low := s.pool.low, mem := s.pool.mem } = s.pool := by
  have hrx := grant_rx c c m rest s
  have hheld := grant_held c c m rest s
  obtain ⟨hfree, hlinks, hmem⟩ := grant_pool c m rest s
  have hpool : (grant c m rest s).pool = { s.pool with free := rest, links := linkedTo s.pool.links (s.chan c).rx.cur m,
                                                       low := (grant c m rest s).pool.low } := by
    rw [grant_eq, countsChanged_pool]
    rfl
  rw [if_pos rfl] at hrx hheld
  generalize grant c m rest s = u at ht hrx hheld hfree hlinks hmem hpool
  have hown : t.chan c = { u.chan c with rx := { (u.chan c).rx with fill := (u.chan c).rx.fill + 1, len := (u.chan c).rx.len + 1 } } := by
    rw [ht, putByte, setRx_eq, chan_setChan_same]
    rfl
  have hwrite : t.pool = { u.pool with mem := Memory.write u.pool.mem (32 * m.val + (u.chan c).rx.fill) b } := by rw [ht]; rfl
  have hfill : (u.chan c).rx.fill = 0 := congrArg RxUnit.fill hrx
  rw [hfill, hmem] at hwrite
  refine ⟨?_, ?_, ?_, ?_, ?_, ?_⟩
  · rw [hown, hrx]; rfl
  · rw [hown]; exact hheld
  · rw [hwrite]; exact hfree
  · rw [hwrite]; exact hlinks
  · rw [hwrite]; rfl
  · rw [hwrite]
    have h := congrArg (fun p : Pool => ({ p with
      free := s.pool.free, links := s.pool.links, low := s.pool.low, mem := s.pool.mem } : Pool)) hpool
    exact h

end Sys2Proof.Machine
end

section
/-! PROOFS. How a message begins, goes on and ends at the end of an RX slot (spec 06, R110 to R112, R115, R116), put together. -/

namespace Sys2Proof.Machine

open Sys2Proof

/-! ## The first byte (R110) -/

/-- The state in which the first byte of a message is stored: a reservation taken, the message OPEN. -/
def State.opens (s : State) (c : Chan) : State :=
  (s.withRing { s.ring with reserved := s.ring.reserved + 1 }).setChan c
    { (s.chan c).marked with rx := { (s.chan c).rx with st := .opened, seen := true } }

theorem opens_chan (s : State) (c : Chan) :
    (s.opens c).chan c = { (s.chan c).marked with rx := { (s.chan c).rx with st := .opened, seen := true } } := chan_setChan_same ..

theorem opens_other (s : State) {c d : Chan} (h : d ≠ c) : (s.opens c).chan d = s.chan d := chan_setChan_other _ _ h

theorem opens_sameFlow (s : State) (c : Chan) : SameFlow s (s.opens c) := .setChan (c := c) rfl rfl rfl rfl rfl

theorem attends_other (s : State) {c d : Chan} (h : d ≠ c) : (s.attends c).chan d = s.chan d := chan_setChan_other _ _ h

theorem takeByte_idle {c : Chan} {b : Byte} {s : State} (h : (s.chan c).rx.st = .idle) :
    takeByte c b (s.attends c) = beginMsg c b (s.attends c) := by
  have hst : ((s.attends c).chan c).rx.st = .idle := by rw [attends_chan]; exact h
  rw [takeByte, hst]

theorem takeByte_opened {c : Chan} {b : Byte} {s : State} (h : (s.chan c).rx.st = .opened) :
    takeByte c b (s.attends c) = storeByte c b (s.attends c) := by
  have hst : ((s.attends c).chan c).rx.st = .opened := by rw [attends_chan]; exact h
  rw [takeByte, hst]

theorem beginMsg_opens {c : Chan} {b : Byte} {s : State} (h : s.ring.entries.length + s.ring.reserved < 32) :
    beginMsg c b (s.attends c) = storeByte c b (s.opens c) := by
  have hopens : (takeReservation (s.attends c)).setRx c { ((takeReservation (s.attends c)).chan c).rx with st := .opened } =
      s.opens c := by
    have hchan : (takeReservation (s.attends c)).chan c = (s.chan c).attends := attends_chan s c
    have hstate : takeReservation (s.attends c) =
        (s.withRing { s.ring with reserved := s.ring.reserved + 1 }).setChan c (s.chan c).attends := rfl
    rw [setRx_eq, hchan, hstate, setChan_setChan]
    rfl
  have hgranted : reservationGranted (s.attends c).ring = true := decide_eq_true h
  exact (if_pos hgranted).trans (congrArg (storeByte c b) hopens)

/-- A message starves (R110). -/
theorem beginMsg_starves {c : Chan} {b : Byte} {s : State} (h : 32 ≤ s.ring.entries.length + s.ring.reserved) :
    beginMsg c b (s.attends c) = raise (.rxStarved c) (s.setChan c { (s.chan c).marked with
      rx := { (s.chan c).rx with st := .starved, seen := true, seq := (s.chan c).rx.seq + 1 }
      sticky := { (s.chan c).sticky with starved := true } }) := by
  have hfull : ¬ reservationGranted (s.attends c).ring = true := fun hg => Nat.not_lt.mpr h (of_decide_eq_true hg)
  rw [beginMsg, if_neg hfull, starve]
  dsimp only
  rw [setSticky_eq, setRx_eq, chan_setChan_same, attends_chan, State.attends, setChan_setChan, setChan_setChan]
  rfl

/-- The state of an RX slot that has ended with the state u of its delivery. -/
def State.ended (s u : State) (n : Nat) : State := { u with slot := s.slotAfter n }

/-- What a byte stored in a state alike leaves beside the channel's three units. -/
theorem leaves_ended {c : Chan} {s v u : State} {y : Channel} {n : Nat} (h : WordLeaves c v u) (hv : v = (s.withRing v.ring).setChan c y)
    (hy : { y with rx := (s.chan c).rx } = (s.chan c).marked) :
    { (s.ended u n).chan c with rx := (s.chan c).rx, fl := (s.chan c).fl, held := (s.chan c).held } = (s.chan c).marked ∧
    (∀ d, d ≠ c → { (s.ended u n).chan d with fl := (s.chan d).fl } = s.chan d) ∧
    { s.ended u n with slot := s.slot, chans := s.chans, pool := s.pool, ring := s.ring } = s ∧ u.ring = v.ring := by
  have hchan : ∀ d, (s.ended u n).chan d = u.chan d := fun _ => rfl
  have hown : v.chan c = y := by rw [hv]; exact chan_setChan_same ..
  have hother : ∀ d, d ≠ c → v.chan d = s.chan d := fun d hd => by rw [hv]; exact chan_setChan_other _ _ hd
  have hring : u.ring = v.ring := by have h' := congrArg State.ring h.frame; exact h'
  refine ⟨?_, fun d hd => ?_, ?_, hring⟩
  · have hown' := h.own
    rw [hown] at hown'
    have h' := congrArg (fun x : Channel =>
      { x with rx := (s.chan c).rx, fl := (s.chan c).marked.fl, held := (s.chan c).marked.held }) hown'
    refine (show _ = _ from h').trans ?_
    have h'' := congrArg (fun x : Channel => { x with fl := (s.chan c).marked.fl, held := (s.chan c).marked.held }) hy
    exact h''
  · have h' := h.other d hd
    rw [hother d hd] at h'
    exact h'
  · have h' := congrArg (fun t : State => ({ t with slot := s.slot, chans := s.chans, pool := s.pool, ring := s.ring } : State)) h.frame
    refine (show _ = _ from h').trans ?_
    rw [hv]
    rfl

/-- A message that gets no block at its first byte is OVERRUN with nothing to free (R110, R111). -/
theorem overrunMsg_opens {c : Chan} {s : State} (hfirst : (s.chan c).rx.first = none) (hcur : (s.chan c).rx.cur = none)
    (hlen : (s.chan c).rx.len = 0) :
    overrunMsg c (s.opens c) = (s.withRing { s.ring with reserved := s.ring.reserved + 1 }).setChan c
      { (s.chan c).marked with rx := { (s.chan c).rx with st := .overrun, fill := 0, seen := true } } := by
  have hrx : ((s.opens c).chan c).rx.first = none := by rw [opens_chan]; exact hfirst
  have hunit : ({ (s.chan c).rx with st := .overrun, first := none, cur := none, fill := 0, len := 0, seen := true } : RxUnit) =
      { (s.chan c).rx with st := .overrun, fill := 0, seen := true } := by simp only [hfirst, hcur, hlen]
  rw [overrunMsg, hrx, freeChain_nil c none _ rfl]
  dsimp only
  rw [setRx_eq, opens_chan, State.opens, setChan_setChan, ← hunit]

/-- Settles O39. -/
theorem firstByteOpensOrStarves : Obligations.FirstByteOpensOrStarves := by
  unfold Obligations.FirstByteOpensOrStarves
  intro x b s hs hslot hwork hbits hword c y marked hrx hst hlen hcur hfirst hmax
  have hexec := exec_rxWord_over hs hslot hwork hbits
  have hdeliver : deliver x.entry.chan x.heard s = beginMsg c b (s.attends c) := by
    rw [show x.heard = .data b from hword]
    exact (deliver_data hrx b).trans (takeByte_idle hst)
  rw [hdeliver] at hexec
  refine ⟨_, hexec, fun hfull => ?_, fun hplace hquota k rest hfree => ?_, fun hplace hrefused => ?_⟩
  · have hstarves := beginMsg_starves (c := c) (b := b) hfull
    generalize beginMsg c b (s.attends c) = u at hstarves
    have hown : u.chan c = _ := (congrArg (State.chan · c) hstarves).trans (chan_setChan_same ..)
    change (u.chan c).rx = _ ∧ (u.chan c).sticky = _ ∧ _ ∧ _ ∧ _ ∧ { u.chan c with rx := y.rx, sticky := y.sticky } = marked
    rw [hown]
    subst hstarves
    exact ⟨rfl, rfl, raisedOnly_raise rfl, onlyChannel_setChan (s := s) rfl, rfl, rfl⟩
  · have hgrants : beginMsg c b (s.attends c) = putByte c k b (grant c k rest (s.opens c)) := by
      rw [beginMsg_opens hplace]
      refine storeByte_grants c b (s.opens c) k rest ?_ (.inl ?_) ?_ hfree
      · rw [opens_chan]; exact hlen ▸ hmax
      · rw [opens_chan]; exact hcur
      · rw [opens_chan]; exact hquota
    have hleaves := storeByte_leaves c b (s.opens c)
    rw [← beginMsg_opens hplace] at hleaves
    obtain ⟨hown, hother, hframe, hring⟩ := leaves_ended (s := s) (n := x.number) hleaves rfl rfl
    obtain ⟨hrx', hheld, hpfree, hlinks, hmem, hpool⟩ := putByte_grant hgrants
    rw [opens_chan] at hrx' hheld hlinks
    refine ⟨hrx'.trans ?_, hheld, hpfree, ?_, fun m hm => ?_, hring, hmem, hpool, hown, ?_, hother, hframe⟩
    · dsimp only
      rw [hfirst, hlen]
      rfl
    · have hnone : (linkedTo s.pool.links y.rx.cur k).get k = none := by rw [hcur, linkedTo, setLink_get, if_pos rfl]
      exact (congrArg (·.get k) hlinks).trans hnone
    · have hkept : (linkedTo s.pool.links y.rx.cur k).get m = s.pool.links.get m := by rw [hcur, linkedTo, setLink_get, if_neg hm]
      exact (congrArg (·.get m) hlinks).trans hkept
    · refine storeByte_flows (c := c) (b := b) hexec (opens_sameFlow s c) fun d => ?_
      rw [← beginMsg_opens hplace]
      rfl
  · have hoverruns : beginMsg c b (s.attends c) = overrunMsg c (s.opens c) := by
      rw [beginMsg_opens hplace]
      refine storeByte_overruns c b (s.opens c) ?_ (.inl ?_) ?_
      · rw [opens_chan]; exact hlen ▸ hmax
      · rw [opens_chan]; exact hcur
      · rw [opens_chan]; exact hrefused
    rw [hoverruns, overrunMsg_opens hfirst hcur hlen]
    exact ⟨chan_setChan_same .., onlyChannel_setChan (s := s) rfl, rfl, rfl⟩
/-! ## The bytes that follow (R111) -/

theorem putByte_eq (c : Chan) (k : BlockNo) (b : Byte) (s : State) : putByte c k b s =
    ({ s with pool := { s.pool with mem := Memory.write s.pool.mem (32 * k.val + (s.chan c).rx.fill) b } } : State).setChan c
      { s.chan c with rx := { (s.chan c).rx with fill := (s.chan c).rx.fill + 1, len := (s.chan c).rx.len + 1 } } := rfl

/-- At max_length the message is TRUNCATING and the byte discarded. -/
theorem storeByte_attends_truncates {c : Chan} {b : Byte} {s : State} (h : (s.chan c).cfg.maxLen ≤ (s.chan c).rx.len) :
    storeByte c b (s.attends c) =
      s.setChan c { (s.chan c).marked with rx := { (s.chan c).rx with st := .truncating, seen := true } } := by
  have hlen : ((s.attends c).chan c).cfg.maxLen ≤ ((s.attends c).chan c).rx.len := by rw [attends_chan]; exact h
  rw [storeByte_truncates c b (s.attends c) hlen, setRx_eq, attends_chan, State.attends, setChan_setChan]
  rfl

/-- With room in the current block the byte is written at the fill position. -/
theorem storeByte_attends_stores {c : Chan} {b : Byte} {k : BlockNo} {s : State} (h : (s.chan c).rx.len < (s.chan c).cfg.maxLen)
    (hk : (s.chan c).rx.cur = some k) (hfill : (s.chan c).rx.fill < 32) :
    storeByte c b (s.attends c) =
      ({ s with pool := { s.pool with mem := Memory.write s.pool.mem (32 * k.val + (s.chan c).rx.fill) b } } : State).setChan c
        { (s.chan c).marked with
          rx := { (s.chan c).rx with fill := (s.chan c).rx.fill + 1, len := (s.chan c).rx.len + 1, seen := true } } := by
  rw [storeByte_stores c b (s.attends c) k (by rw [attends_chan]; exact h) (by rw [attends_chan]; exact hk)
    (by rw [attends_chan]; exact hfill), putByte_eq, attends_chan]
  exact setChan_setChan
    ({ s with pool := { s.pool with mem := Memory.write s.pool.mem (32 * k.val + (s.chan c).rx.fill) b } } : State) c
    (s.chan c).attends _

/-- An OPEN message without a block for its byte: OVERRUN, its chain freed (R103, R111). -/
theorem overrunMsg_attends {c : Chan} {s u : State} (hu : u = overrunMsg c (s.attends c)) :
    (u.chan c).rx = { (s.chan c).rx with st := .overrun, first := none, cur := none, fill := 0, len := 0, seen := true } ∧
    u.pool.free = s.pool.free ++ s.openChain c ∧
    { u.pool with free := s.pool.free, links := s.pool.links, low := s.pool.low } = s.pool ∧
    (∀ m, u.pool.links.get m = if m ∈ s.openChain c then none else s.pool.links.get m) ∧
    (u.chan c).held = (s.chan c).held - (s.openChain c).length := by
  have hrx := overrunMsg_rx c c (s.attends c)
  rw [if_pos rfl, attends_chan] at hrx
  have hfirst : ((s.attends c).chan c).rx.first = (s.chan c).rx.first := by rw [attends_chan]; rfl
  have hheld : (u.chan c).held = ((freeChain c (s.chan c).rx.first (s.attends c)).chan c).held := by
    rw [hu, overrunMsg, hfirst]
    exact setRx_held ..
  have hpool : u.pool = (freeChain c (s.chan c).rx.first (s.attends c)).pool := by
    rw [hu, overrunMsg, hfirst]
    rfl
  rw [hheld, hpool, freeChain_held, if_pos rfl, attends_chan]
  exact ⟨(congrArg (fun v : State => (v.chan c).rx) hu).trans hrx, freeChain_free .., freeChain_pool_frame .., freeChain_links _ _ _, rfl⟩

/-- Settles O40. -/
theorem nextByteIsStored : Obligations.NextByteIsStored := by
  unfold Obligations.NextByteIsStored
  intro x b k s hs hslot hwork hbits hword c y marked hrx hst hcur
  have hexec := exec_rxWord_over hs hslot hwork hbits
  have hdeliver : deliver x.entry.chan x.heard s = storeByte c b (s.attends c) := by
    rw [show x.heard = .data b from hword]
    exact (deliver_data hrx b).trans (takeByte_opened hst)
  rw [hdeliver] at hexec
  have hleaves := storeByte_leaves c b (s.attends c)
  obtain ⟨hown, hother, -, -⟩ := leaves_ended (s := s) (n := x.number) hleaves rfl rfl
  have hflows := storeByte_flows (c := c) (b := b) hexec (attends_sameFlow s c) fun d => rfl
  have htrunc := storeByte_attends_truncates (c := c) (b := b) (s := s)
  have hstore := storeByte_attends_stores (c := c) (b := b) (k := k) (s := s)
  refine ⟨_, hexec, ?_, hown, hflows, hother, fun hlen => ?_, fun hlen hfill => ?_, fun h => ?_, fun hlen hfill hrefused => ?_,
    fun hlen hfill hquota hfirst m rest hfree hne => ?_⟩
  · have h := congrArg (fun t : State => ({ t with slot := s.slot, chans := s.chans, pool := s.pool } : State)) hleaves.frame
    exact h
  · rw [htrunc hlen]
    refine ⟨?_, rfl, onlyChannel_setChan rfl⟩
    exact congrArg Channel.rx (chan_setChan_same s c _)
  · rw [hstore hlen hcur hfill]
    refine ⟨?_, rfl, onlyChannel_setChan rfl⟩
    exact congrArg Channel.rx (chan_setChan_same _ c _)
  · by_cases hlen : y.cfg.maxLen ≤ y.rx.len
    · rw [htrunc hlen]
      exact ⟨(congrArg Channel.held (chan_setChan_same s c _)).trans rfl, (congrArg Channel.fl (chan_setChan_same s c _)).trans rfl⟩
    · rw [hstore (Nat.not_le.mp hlen) hcur (h.resolve_left hlen)]
      exact ⟨(congrArg Channel.held (chan_setChan_same _ c _)).trans rfl, (congrArg Channel.fl (chan_setChan_same _ c _)).trans rfl⟩
  · refine overrunMsg_attends (u := storeByte c b (s.attends c)) (storeByte_overruns c b (s.attends c) ?_ (.inr ?_) ?_)
    · rw [attends_chan]; exact hlen
    · rw [attends_chan]; exact hfill.ge
    · rw [attends_chan]; exact hrefused
  · have hgrants : storeByte c b (s.attends c) = putByte c m b (grant c m rest (s.attends c)) := by
      refine storeByte_grants c b (s.attends c) m rest ?_ (.inr ?_) ?_ hfree
      · rw [attends_chan]; exact hlen
      · rw [attends_chan]; exact hfill.ge
      · rw [attends_chan]; exact hquota
    obtain ⟨hrx', hheld, hpfree, hlinks, hmem, hpool⟩ := putByte_grant hgrants
    rw [attends_chan] at hrx' hheld hlinks
    have hlinked : ∀ i, (storeByte c b (s.attends c)).pool.links.get i = if i = k then some m else if i = m then none
        else s.pool.links.get i := fun i => by
      rw [hlinks]
      change (linkedTo s.pool.links y.rx.cur m).get i = _
      rw [hcur, linkedTo, setLink_get, setLink_get]
    obtain ⟨a, ha⟩ := Option.ne_none_iff_exists'.mp hfirst
    have hor : y.rx.first.or (some m) = y.rx.first := by rw [ha]; rfl
    refine ⟨hrx'.trans (congrArg (fun a => ({ y.rx with first := a, cur := some m, fill := 1, len := y.rx.len + 1, seen := true } : RxUnit)) hor),
      hheld, hpfree, ?_, ?_, fun i hi hi' => ?_, hmem, hpool⟩
    · exact (hlinked k).trans (if_pos rfl)
    · exact (hlinked m).trans ((if_neg hne).trans (if_pos rfl))
    · exact (hlinked i).trans ((if_neg hi).trans (if_neg hi'))

end Sys2Proof.Machine
end

section
/-! PROOFS. A LAST word at the end of an RX slot (spec 06, R112, R115, R116, R118; 07, R129). -/

namespace Sys2Proof.Machine

open Sys2Proof

/-- All that the end of a message in progress leaves (R108, R115, R116, R118, R129). -/
theorem closeMsg_ends {c : Chan} {cause : MsgStatus} {s t : State} (ht : t = closeMsg c cause s) (hc : cause ≠ .overrun)
    (h : (s.chan c).rx.st ≠ .idle) :
    t.chan c = { s.chan c with rx := {
      st := .idle, first := none, cur := none, fill := 0, len := 0, damaged := false, gap := 0, seen := false
      seq := if (s.chan c).rx.st = .starved then (s.chan c).rx.seq else (s.chan c).rx.seq + 1 } } ∧
    onlyChannel c s t ∧ { t with chans := s.chans, ring := s.ring } = s ∧
    t.ring = if (s.chan c).rx.st = .starved then s.ring else { s.ring with
      entries := s.ring.entries ++ [endedAs c cause s], reserved := s.ring.reserved - 1, timer := 0 } := by
  obtain ⟨hstarved, hplaced⟩ := joined_ending hc h
  rw [closeMsg_joined, closed_eq_endedUnit h, endedUnit_of_progress h] at ht
  subst ht
  refine ⟨chan_setChan_same .., onlyChannel_setChan (s := s) rfl, rfl, ?_⟩
  change s.ring.joined (endingOf cause c s) = _
  split
  · next hst => exact hstarved hst
  · next hst => exact hplaced hst

/-! ## A message is in progress once a byte of it has come -/

theorem overrunMsg_st (c : Chan) (s : State) : ((overrunMsg c s).chan c).rx.st = .overrun := by rw [overrunMsg_rx, if_pos rfl]

theorem storeByte_progress {c : Chan} {b : Byte} {s : State} (h : (s.chan c).rx.st ≠ .idle) :
    ((storeByte c b s).chan c).rx.st ≠ .idle := by
  rcases storeByte_cases c b s with ⟨-, hcase⟩ | ⟨k, -, hcase⟩ | hcase | ⟨m, rest, -, hcase⟩
  · rw [hcase, setRx_rx, if_pos rfl]
    exact (by decide : RxState.truncating ≠ .idle)
  · rw [hcase, putByte_eq, chan_setChan_same]
    exact h
  · rw [hcase, overrunMsg_st]
    decide
  · rw [(putByte_grant hcase).1]
    exact h

theorem takeByte_progress (c : Chan) (b : Byte) (s : State) : ((takeByte c b s).chan c).rx.st ≠ .idle := by
  cases hst : (s.chan c).rx.st with
  | idle =>
    have htake : takeByte c b s = beginMsg c b s := by rw [takeByte, hst]
    rw [htake, beginMsg]
    split
    · refine storeByte_progress ?_
      rw [setRx_rx, if_pos rfl]
      exact (by decide : RxState.opened ≠ .idle)
    · have hstarves : ((starve c s).chan c).rx.st = .starved := by
        unfold starve
        dsimp only
        rw [setSticky_eq, setRx_eq, chan_setChan_same, setChan_setChan]
        exact congrArg (fun x : Channel => x.rx.st) (chan_setChan_same ..)
      rw [hstarves]
      decide
  | opened =>
    have htake : takeByte c b s = storeByte c b s := by rw [takeByte, hst]
    rw [htake]
    exact storeByte_progress (by rw [hst]; decide)
  | truncating => rw [takeByte_discards (by rw [hst]; decide) (by rw [hst]; decide), hst]; decide
  | overrun => rw [takeByte_discards (by rw [hst]; decide) (by rw [hst]; decide), hst]; decide
  | starved => rw [takeByte_discards (by rw [hst]; decide) (by rw [hst]; decide), hst]; decide

/-! ## LAST after DATA -/

/-- The end of a message is the same before the next slot begins and after. -/
theorem closeMsg_ended (c : Chan) (cause : MsgStatus) (s u : State) (n : Nat) :
    s.ended (closeMsg c cause u) n = closeMsg c cause (s.ended u n) :=
  (closeMsg_retimed (k := id) (j := fun _ => s.slotAfter n) (fun _ => rfl) c cause u).symm

/-- The end of a message after a byte that leaves it in progress, the slot with it. -/
theorem lastWord_ends {c : Chan} {s u t : State} {n : Nat} (ht : t = s.ended (closeMsg c .ok u) n) (h : (u.chan c).rx.st ≠ .idle) :
    t.chan c = { u.chan c with rx := {
      st := .idle, first := none, cur := none, fill := 0, len := 0, damaged := false, gap := 0, seen := false
      seq := if (u.chan c).rx.st = .starved then (u.chan c).rx.seq else (u.chan c).rx.seq + 1 } } ∧
    onlyChannel c (s.ended u n) t ∧ { t with chans := (s.ended u n).chans, ring := (s.ended u n).ring } = s.ended u n ∧
    t.ring = if (u.chan c).rx.st = .starved then u.ring else { u.ring with
      entries := u.ring.entries ++ [endedAs c .ok u], reserved := u.ring.reserved - 1, timer := 0 } :=
  closeMsg_ends (s := s.ended u n) (ht.trans (closeMsg_ended ..)) (by decide) h

/-- A byte is taken alike whatever slot is in progress. -/
theorem takeByte_slot (c : Chan) (b : Byte) (p : SlotPhase) (s : State) :
    takeByte c b (State.attends { s with slot := p } c) = { takeByte c b (s.attends c) with slot := p } :=
  takeByte_retimed (k := id) (j := fun _ => p) c b (s.attends c)

/-- The byte of a LAST word that ends a message in progress: stored where it has room in an OPEN message, else discarded (R111,
R112). -/
theorem takeByte_of_last {c : Chan} {b : Byte} {s : State} (hst : (s.chan c).rx.st ≠ .idle)
    (hroom : (s.chan c).rx.st = .opened →
      (s.chan c).rx.len < (s.chan c).cfg.maxLen ∧ (s.chan c).rx.fill < 32 ∧ (s.chan c).rx.cur ≠ none) :
    ∃ (p : Pool) (u : RxUnit), takeByte c b (s.attends c) = ({ s with pool := p } : State).setChan c { (s.chan c).marked with rx := u } ∧
      (u.st = (s.chan c).rx.st ∧ u.seq = (s.chan c).rx.seq ∧ u.damaged = (s.chan c).rx.damaged ∧ u.first = (s.chan c).rx.first ∧
        u.len = if (s.chan c).rx.st = .opened then (s.chan c).rx.len + 1 else (s.chan c).rx.len) ∧
      ((s.chan c).rx.st ≠ .opened → p = s.pool) ∧
      ∀ k, (s.chan c).rx.st = .opened → (s.chan c).rx.cur = some k →
        p = { s.pool with mem := Memory.write s.pool.mem (32 * k.val + (s.chan c).rx.fill) b } := by
  by_cases hopen : (s.chan c).rx.st = .opened
  · obtain ⟨hlen, hfill, hcur⟩ := hroom hopen
    obtain ⟨k, hk⟩ := Option.ne_none_iff_exists'.mp hcur
    refine ⟨_, _, (takeByte_opened hopen).trans (storeByte_attends_stores hlen hk hfill), ⟨rfl, rfl, rfl, rfl, (if_pos hopen).symm⟩,
      fun h => absurd hopen h, fun k' _ hk' => ?_⟩
    obtain rfl := Option.some.inj (hk.symm.trans hk')
    rfl
  · have hdiscards : takeByte c b (s.attends c) = s.attends c :=
      takeByte_discards (by rw [attends_chan]; exact hst) (by rw [attends_chan]; exact hopen)
    exact ⟨s.pool, { (s.chan c).rx with seen := true }, hdiscards, ⟨rfl, rfl, rfl, rfl, (if_neg hopen).symm⟩, fun _ => rfl,
      fun _ h => absurd h hopen⟩

/-- The class of a word that the part builds, from its eleven bits (R12). -/
theorem heard_buildWord (x : Slot) (t : Tag) (b : Byte) :
    Slot.heard { x with bits := wordBits (buildWord t b) } = classOf t b := by
  rw [Slot.heard, wordOfBits_wordBits, classify_buildWord]

/-- Settles O41. -/
theorem lastWordEndsTheMessage : Obligations.LastWordEndsTheMessage := by
  unfold Obligations.LastWordEndsTheMessage
  refine ⟨fun x b s hs hslot hwork hbits hword => ?_, fun x b s hs hslot hwork hbits hword => ?_⟩
  · intro c y hrx hst hroom
    have hexec := exec_rxWord_over hs hslot hwork hbits
    have hdeliver : deliver x.entry.chan x.heard s = closeMsg c .ok (takeByte c b (s.attends c)) := by
      rw [show x.heard = .last b from hword]
      exact deliver_last hrx b
    rw [hdeliver] at hexec
    obtain ⟨p, u, htake, ⟨hust, huseq, hudam, hufirst, hulen⟩, hpool, hwritten⟩ := takeByte_of_last (b := b) hst hroom
    rw [htake] at hexec
    generalize hv : ({ s with pool := p } : State).setChan c { (s.chan c).marked with rx := u } = v at hexec
    have hvc : v.chan c = { (s.chan c).marked with rx := u } := by rw [← hv]; exact chan_setChan_same ..
    have hvst : (v.chan c).rx.st = y.rx.st := by rw [hvc]; exact hust
    obtain ⟨hown, honly, hframe, hring⟩ := lastWord_ends (s := s) (n := x.number) (c := c) (u := v) rfl (by rw [hvst]; exact hst)
    rw [hvst] at hown hring
    refine ⟨_, hexec, fun d hd => ?_, ?_, hown.trans ?_, fun hstarved => ?_, fun hne => ?_, fun hne => ?_, fun k hk hcur => ?_⟩
    · refine (honly d hd).trans ?_
      subst hv
      exact chan_setChan_other _ _ hd
    · have h := congrArg (fun t : State =>
        ({ t with slot := s.slot, chans := s.chans, ring := s.ring, pool := s.pool } : State)) hframe
      subst hv
      exact h
    · rw [hvc, ← huseq]
      rfl
    · rw [if_pos hstarved] at hring
      subst hv
      exact hring
    · rw [if_neg hne] at hring
      have hdesc : endedAs c .ok v = {
          chan := c, seq := y.rx.seq, damaged := y.rx.damaged, stamp := s.tim.frameCnt
          status := if y.rx.st = .opened then .ok else if y.rx.st = .truncating then .truncated else .overrun
          length := if y.rx.st = .opened then y.rx.len + 1 else if y.rx.st = .truncating then y.rx.len else 0
          first := if y.rx.st = .overrun then none else y.rx.first } := by
        have htim : v.tim = s.tim := by rw [← hv]; rfl
        simp only [endedAs, htim, hvc, hust, huseq, hudam, hufirst, hulen]
        cases hcase : y.rx.st <;> simp_all [y]
      rw [hdesc] at hring
      subst hv
      exact hring
    · have h := congrArg State.pool hframe
      refine (show _ = v.pool from h).trans ((congrArg State.pool hv).symm.trans (hpool hne))
    · have h := congrArg State.pool hframe
      refine (show _ = v.pool from h).trans ((congrArg State.pool hv).symm.trans (hwritten k hk hcur))
  · intro c hrx
    have hdata := heard_buildWord x .data b
    have hlast : x.heard = .last b := hword
    have hexec := exec_rxWord_over hs hslot hwork hbits
    have hexec' := exec_rxWord_over (s := { s with slot := .inSlot { x with bits := wordBits (buildWord .data b) } }) hs rfl hwork
      (wordBits_length _)
    rw [hlast, deliver_last hrx] at hexec
    have htaken : deliver c (classOf .data b) { s with slot := .inSlot { x with bits := wordBits (buildWord .data b) } } =
        { takeByte c b (s.attends c) with slot := .inSlot { x with bits := wordBits (buildWord .data b) } } :=
      (deliver_data (s := { s with slot := .inSlot { x with bits := wordBits (buildWord .data b) } }) hrx b).trans
        (takeByte_slot c b _ s)
    rw [hdata, htaken] at hexec'
    have hprogress := takeByte_progress c b (s.attends c)
    generalize takeByte c b (s.attends c) = w at hexec hexec' hprogress
    obtain ⟨hown, honly, hframe, hring⟩ := lastWord_ends (s := s) (n := x.number) rfl hprogress
    exact ⟨_, hexec', _, hexec, honly, hframe, hown, hring⟩

end Sys2Proof.Machine
end

section
/-! PROOFS. The enables of a channel (spec 04, R64, R66; 05, R93; 06, R117, R123; 08, R145, R153) and FLUSH (04, R68 to R72). -/

namespace Sys2Proof.Machine

open Sys2Proof

/-! ## What a change of counts leaves of a flow unit -/

/-- A flow unit without its counted causes and the local pause they make: the HOST cause, the remote pause and the word in
flight. -/
def FlowUnit.aside (u : FlowUnit) : FlowUnit :=
  { u with quota := false, pool := false, asserted := false, pauseOwed := false, resumeOwed := false, refresh := 0 }

theorem aside_iff {u v : FlowUnit} : u.aside = v.aside ↔
    u.flight = v.flight ∧ u.host = v.host ∧ u.held = v.held ∧ u.holdCnt = v.holdCnt := by
  simp only [FlowUnit.aside, FlowUnit.mk.injEq]
  tauto

theorem settled_aside (x : Channel) : x.settled.fl.aside = x.fl.aside := by
  rw [settled_eq]
  dsimp only
  split
  · rfl
  · rfl

theorem countsChanged_aside (c d : Chan) (s : State) : ((countsChanged c s).chan d).fl.aside = (s.chan d).fl.aside := by
  have hquota : ∀ x : Channel, x.quotaSettled.fl.aside = x.fl.aside := fun _ => settled_aside _
  have hpool : ∀ (x : Channel) (low : Bool), (x.poolSettled low).fl.aside = x.fl.aside := fun _ _ => settled_aside _
  rw [countsChanged_chan]
  by_cases hd : d = c
  · subst hd
    rw [if_pos rfl]
    dsimp only
    split
    · exact hquota _
    · exact (hpool _ _).trans (hquota _)
  · rw [if_neg hd]
    dsimp only
    split
    · rfl
    · exact hpool _ _

theorem freeChain_aside (c d : Chan) (first : Option BlockNo) (s : State) :
    ((freeChain c first s).chan d).fl.aside = (s.chan d).fl.aside := by
  by_cases hn : s.pool.chain first = []
  · rw [freeChain_nil c first s hn]
  · rw [freeChain_eq c first s hn, countsChanged_aside, chan_setChan]
    split
    · next hd => subst hd; rfl
    · rfl

theorem discardMsg_aside (c d : Chan) (s : State) : ((discardMsg c s).chan d).fl.aside = (s.chan d).fl.aside := by
  obtain ⟨first, h⟩ := discardMsg_frees c s
  rw [(h d).1, freeChain_aside]

/-! ## Flow units that follow up to a last evaluation -/

/-- A discard lets the local pause go only. -/
theorem discardMsg_flowsMove {s : State} (c : Chan) (hcauses : s.causesLaw) (hleans : ∀ d, (s.chan d).leans false) :
    FlowsMove false [] s (discardMsg c s) := by
  obtain ⟨first, h⟩ := discardMsg_frees c s
  exact (freeChain_flowsMove (first := first) hcauses hleans).congr (fun _ => rfl) (fun d => (h d).1) (fun d => (h d).2.1)
    fun d => (h d).2.2

/-- After moves in one direction the HOST cause and the remote pause of c may change, and its local pause is evaluated again. -/
theorem FlowsMove.evaluated {up : Bool} {but : List Chan} {s u : State} {c : Chan} {z : Channel} (h : FlowsMove up but s u)
    (hsame : FlowMoves up (u.chan c) z) (hquota : z.fl.quota = (u.chan c).fl.quota) (hcfg : z.cfg = (u.chan c).cfg)
    (hheld : z.held = (u.chan c).held) (hleans : z.leans up) : FlowsMove up (c :: but) s (u.setChan c z.settled) where
  moves d := by
    by_cases hd : d = c
    · subst hd
      rw [chan_setChan_same]
      exact (h.moves d).trans (hsame.trans (settled_flowMoves hleans))
    · rw [chan_setChan_other u _ hd]; exact h.moves d
  quota d := by
    by_cases hd : d = c
    · subst hd
      rw [chan_setChan_same, settled_cfg, settled_held, settled_quota, hquota, hcfg, hheld]
      exact h.quota d
    · rw [chan_setChan_other u _ hd]; exact h.quota d
  rest d hd := by
    obtain ⟨hne, hbut⟩ := not_or.mp (mt List.mem_cons.mpr hd)
    rw [chan_setChan_other u _ hne]
    exact h.rest d hbut

/-! ## A write of the enables -/

/-- A transmit unit whose channel's tx_enable the host takes to 0 (R93). -/
def TxUnit.disabled (u : TxUnit) : TxUnit :=
  if u.flight.isSome then { u with testDue := true }
  else if u.sending && decide (0 < u.offset) then u.uncountedRestart else u

theorem txDisable_eq (c : Chan) (s : State) : txDisable c s = s.setChan c { s.chan c with tx := (s.chan c).tx.disabled } := by
  unfold txDisable TxUnit.disabled
  dsimp only
  split
  · rfl
  · split
    · rfl
    · exact (setChan_self s c).symm

/-- The transmit unit and the remote pause of a channel of which tx_enable or fc_enable is taken to 0 (R93, R153). -/
def Channel.switchedOff (txOff fcOff : Bool) (x : Channel) : Channel :=
  { x with
    tx := if txOff then x.tx.disabled else x.tx
    fl := if fcOff then { x.fl with held := false, holdCnt := 0 } else x.fl }

/-- The stored enables: the message discarded where rx_enable is taken to 0, and then the transmit unit, the remote pause and
the local pause of the channel. -/
theorem enablesStored_eq (c : Chan) (old : ChanCfg) (s : State) : enablesStored c old s =
    let u := if old.rx && !(s.chan c).cfg.rx then discardMsg c s else s
    u.setChan c ((u.chan c).switchedOff (old.tx && !(s.chan c).cfg.tx) (old.fc && !(s.chan c).cfg.fc)).settled := by
  have hpart : ∀ (p q : Bool) (u : State),
      evalPause c (if q then letGo c (if p then txDisable c u else u) else if p then txDisable c u else u) =
        u.setChan c ((u.chan c).switchedOff p q).settled := by
    intro p q u
    have htx : (if p then txDisable c u else u) = u.setChan c ((u.chan c).switchedOff p false) := by
      cases p
      · exact (setChan_self u c).symm
      · exact txDisable_eq c u
    rw [htx, evalPause_eq]
    cases q
    · rw [if_neg (by decide), chan_setChan_same, setChan_setChan]
    · rw [if_pos rfl, letGo, setFl_eq, setChan_setChan, chan_setChan_same, chan_setChan_same, setChan_setChan]
      rfl
  exact hpart _ _ _

/-- The seven instructions that write CHCFG0. -/
theorem exec_chcfg0 {w : Word} {s : State} (hs : s.resetn = true) {i : Instr}
    (hi : i ∈ [Instr.chcfgWrite 0 w, .rxEnableSet w, .rxEnableClear w, .txEnableSet w, .txEnableClear w, .fcEnableSet w,
      .fcEnableClear w]) : exec i s = .next (writeChcfg0 w s) := by
  have hwrite : outOfReset (writeChcfg0 w) s = writeChcfg0 w s := outOfReset_high _ hs
  simp only [List.mem_cons, List.not_mem_nil, or_false] at hi
  rcases hi with rfl | rfl | rfl | rfl | rfl | rfl | rfl
  · exact congrArg _ (outOfReset_high _ hs)
  all_goals exact congrArg _ hwrite

theorem enablesBarred_iff {s : State} {c : Chan} {rx fc : Bool} : enablesBarred s c rx fc = true ↔ rx = true ∧ fc = true ∧
    (s.map.active.gives .rx c = true ∧ s.map.active.gives .tx c = false ∨
      s.map.commit = .pending ∧ s.map.shadow.gives .rx c = true ∧ s.map.shadow.gives .tx c = false) := by
  simp only [enablesBarred, Bank.noReturn, Bool.or_eq_true, Bool.and_eq_true, Bool.not_eq_true', decide_eq_true_eq, and_assoc]

/-- The state with the enables of a CHCFG0 word stored and nothing else done. -/
def State.withEnablesOf (s : State) (w : Word) : State :=
  s.setChan s.chsel { s.chan s.chsel with
    cfg := { (s.chan s.chsel).cfg with rx := w.getLsbD 0, tx := w.getLsbD 1, fc := w.getLsbD 2 } }

/-- That state, with the message discarded where the word takes rx_enable to 0. -/
def State.rxSwitched (s : State) (w : Word) : State :=
  if (s.chan s.chsel).cfg.rx && !w.getLsbD 0 then discardMsg s.chsel (s.withEnablesOf w) else s.withEnablesOf w

/-- The selected channel there, with its transmit unit and remote pause switched. -/
def State.offChannel (s : State) (w : Word) : Channel :=
  ((s.rxSwitched w).chan s.chsel).switchedOff ((s.chan s.chsel).cfg.tx && !w.getLsbD 1) ((s.chan s.chsel).cfg.fc && !w.getLsbD 2)

theorem withEnablesOf_chan (s : State) (w : Word) : (s.withEnablesOf w).chan s.chsel = { s.chan s.chsel with
    cfg := { (s.chan s.chsel).cfg with rx := w.getLsbD 0, tx := w.getLsbD 1, fc := w.getLsbD 2 } } := chan_setChan_same ..

/-- An accepted CHCFG0 write. -/
theorem writeChcfg0_accepted {s : State} {w : Word} (h : ¬ enablesBarred s s.chsel (w.getLsbD 0) (w.getLsbD 2) = true) :
    writeChcfg0 w s = (s.rxSwitched w).setChan s.chsel (s.offChannel w).settled := by
  have hw : writeChcfg0 w s = enablesStored s.chsel (s.chan s.chsel).cfg (s.withEnablesOf w) := if_neg h
  rw [hw, enablesStored_eq, withEnablesOf_chan]
  rfl

/-! ## What a CHCFG0 write leaves (R64, R66) -/

theorem rxSwitched_of_kept {s : State} {w : Word} (h : (s.chan s.chsel).cfg.rx = false ∨ w.getLsbD 0 = true) :
    s.rxSwitched w = s.withEnablesOf w := by
  refine if_neg ?_
  rcases h with h | h
  · simp [h]
  · simp [h]

theorem rxSwitched_of_cleared {s : State} {w : Word} (hold : (s.chan s.chsel).cfg.rx = true) (hnew : w.getLsbD 0 = false) :
    s.rxSwitched w = discardMsg s.chsel (s.withEnablesOf w) := if_pos (by rw [hold, hnew]; rfl)

/-- A fact about the state with the enables stored and about that state after a discard. -/
theorem rxSwitched_cases {s : State} {w : Word} {P : State → Prop} (hkept : P (s.withEnablesOf w))
    (hcleared : P (discardMsg s.chsel (s.withEnablesOf w))) : P (s.rxSwitched w) := by
  unfold State.rxSwitched
  split
  · exact hcleared
  · exact hkept

theorem rxSwitched_own (s : State) (w : Word) :
    { (s.rxSwitched w).chan s.chsel with
      fl := (s.chan s.chsel).fl, held := (s.chan s.chsel).held, rx := (s.chan s.chsel).rx } =
    (s.withEnablesOf w).chan s.chsel := by
  have hstored := withEnablesOf_chan s w
  refine rxSwitched_cases (P := fun u => { u.chan s.chsel with
      fl := (s.chan s.chsel).fl, held := (s.chan s.chsel).held, rx := (s.chan s.chsel).rx } = _) ?_ ?_
  · rw [hstored]
  · have h := discardMsg_chan_frame s.chsel s.chsel (s.withEnablesOf w)
    rw [hstored] at h ⊢
    exact h

theorem rxSwitched_other {s : State} {d : Chan} (hd : d ≠ s.chsel) (w : Word) :
    { (s.rxSwitched w).chan d with fl := (s.chan d).fl } = s.chan d := by
  have hstored : (s.withEnablesOf w).chan d = s.chan d := chan_setChan_other _ _ hd
  refine rxSwitched_cases (P := fun u => { u.chan d with fl := (s.chan d).fl } = s.chan d) ?_ ?_
  · rw [hstored]
  · have h := discardMsg_chan_other hd (s.withEnablesOf w)
    rw [hstored] at h
    exact h

theorem rxSwitched_frame (s : State) (w : Word) :
    { s.rxSwitched w with chans := s.chans, pool := s.pool, ring := s.ring } = s := by
  refine rxSwitched_cases (P := fun u => { u with chans := s.chans, pool := s.pool, ring := s.ring } = s) rfl ?_
  have h := congrArg (fun u : State => { u with chans := s.chans }) (discardMsg_frame s.chsel (s.withEnablesOf w))
  exact h

theorem rxSwitched_entries (s : State) (w : Word) : (s.rxSwitched w).ring.entries = s.ring.entries := by
  refine rxSwitched_cases (P := fun u => u.ring.entries = s.ring.entries) rfl ?_
  rw [discardMsg_ring_eq]
  rfl

theorem rxSwitched_aside (s : State) (w : Word) :
    ((s.rxSwitched w).chan s.chsel).fl.aside = (s.chan s.chsel).fl.aside := by
  have hstored : ((s.withEnablesOf w).chan s.chsel).fl.aside = (s.chan s.chsel).fl.aside := by rw [withEnablesOf_chan]
  exact rxSwitched_cases (P := fun u => (u.chan s.chsel).fl.aside = (s.chan s.chsel).fl.aside) hstored
    ((discardMsg_aside _ _ _).trans hstored)

/-- The selected channel's fields but its receive unit, its flow unit and its held count. -/
theorem rxSwitched_fields (s : State) (w : Word) :
    ((s.rxSwitched w).chan s.chsel).cfg =
      { (s.chan s.chsel).cfg with rx := w.getLsbD 0, tx := w.getLsbD 1, fc := w.getLsbD 2 } ∧
    ((s.rxSwitched w).chan s.chsel).tx = (s.chan s.chsel).tx ∧ ((s.rxSwitched w).chan s.chsel).peer = (s.chan s.chsel).peer ∧
    ((s.rxSwitched w).chan s.chsel).sticky = (s.chan s.chsel).sticky := by
  have h := rxSwitched_own s w
  rw [withEnablesOf_chan] at h
  have hcfg := congrArg Channel.cfg h
  have htx := congrArg Channel.tx h
  have hpeer := congrArg Channel.peer h
  have hsticky := congrArg Channel.sticky h
  exact ⟨hcfg, htx, hpeer, hsticky⟩

theorem switchedOff_flowMoves (up txOff fcOff : Bool) (x : Channel) : FlowMoves up x (x.switchedOff txOff fcOff) := by
  cases fcOff
  · exact .of_fl rfl
  · exact .of_same rfl rfl rfl rfl rfl

theorem switchedOff_quota (txOff fcOff : Bool) (x : Channel) : (x.switchedOff txOff fcOff).fl.quota = x.fl.quota := by
  cases fcOff <;> rfl

theorem switchedOff_host (txOff fcOff : Bool) (x : Channel) : (x.switchedOff txOff fcOff).fl.host = x.fl.host := by
  cases fcOff <;> rfl

theorem withEnablesOf_fl (s : State) (w : Word) (d : Chan) : ((s.withEnablesOf w).chan d).fl = (s.chan d).fl := by
  by_cases hd : d = s.chsel
  · subst hd; rw [withEnablesOf_chan]
  · rw [State.withEnablesOf, chan_setChan_other _ _ hd]

theorem withEnablesOf_causesLaw {s : State} (w : Word) (h : s.causesLaw) : (s.withEnablesOf w).causesLaw :=
  setChan_causesLaw h (fun hf => ⟨hf.pause, hf.resume, hf.pool⟩) fun hq => ⟨hq.on, hq.off⟩

/-- With rx_enable 0 the local pause can only go. -/
theorem leans_of_rxDisabled {x : Channel} (h : x.cfg.rx = false) : x.leans false := fun _ => by
  rw [pauseWanted, h]
  rfl

/-- A discard with rx_enable taken to 0 lets local pauses go only. -/
theorem rxSwitched_flowsMove {s : State} {w : Word} (hold : (s.chan s.chsel).cfg.rx = true) (hnew : w.getLsbD 0 = false)
    (hp : s.pauseLaw) : FlowsMove false [] s (s.rxSwitched w) := by
  obtain ⟨hcauses, hkept⟩ := (pauseLaw_iff s).mp hp
  have hleans : ∀ d, ((s.withEnablesOf w).chan d).leans false := fun d => by
    by_cases hd : d = s.chsel
    · subst hd
      exact leans_of_rxDisabled (by rw [withEnablesOf_chan]; exact hnew)
    · rw [State.withEnablesOf, chan_setChan_other _ _ hd]
      exact leans_of_kept (hkept d)
  rw [rxSwitched_of_cleared hold hnew]
  exact (discardMsg_flowsMove s.chsel (withEnablesOf_causesLaw w hcauses) hleans).congr
    (fun d => (withEnablesOf_fl s w d).symm) (fun _ => rfl) (fun _ => rfl) fun _ => rfl

/-- The flow units after a CHCFG0 write. -/
theorem chcfg0_flowsFollow {s : State} {w : Word} {i : Instr}
    (hexec : exec i s = .next ((s.rxSwitched w).setChan s.chsel (s.offChannel w).settled)) :
    flowsFollow [s.chsel] s ((s.rxSwitched w).setChan s.chsel (s.offChannel w).settled) := by
  by_cases hclears : (s.chan s.chsel).cfg.rx = true ∧ w.getLsbD 0 = false
  · refine flowsFollow_of (up := false) hexec fun _ hp => ?_
    have hrx := congrArg ChanCfg.rx (rxSwitched_fields s w).1
    exact (rxSwitched_flowsMove hclears.1 hclears.2 hp).evaluated (switchedOff_flowMoves ..) (switchedOff_quota ..) rfl rfl
      (leans_of_rxDisabled (hrx.trans hclears.2))
  · refine flowsFollow_of (up := pauseWanted (s.offChannel w)) hexec fun _ _ => ?_
    have hkept : (s.chan s.chsel).cfg.rx = false ∨ w.getLsbD 0 = true := by
      simpa only [not_and_or, Bool.not_eq_true, Bool.not_eq_false] using hclears
    refine (FlowsMove.of_fl (but := []) fun d => ?_).evaluated (switchedOff_flowMoves ..) (switchedOff_quota ..) rfl rfl
      fun _ => rfl
    rw [rxSwitched_of_kept hkept]
    exact withEnablesOf_fl s w d

/-- A CHCFG0 write that takes rx_enable to 0 discards the message in progress (R117, R123). -/
theorem rxSwitched_discards {s : State} {w : Word} (hold : (s.chan s.chsel).cfg.rx = true) (hnew : w.getLsbD 0 = false) :
    let x := s.chan s.chsel
    let t := s.rxSwitched w
    let y := t.chan s.chsel
    (x.rx.st = .idle → y.rx = x.rx ∧ y.held = x.held ∧ t.pool = s.pool ∧ t.ring = s.ring) ∧
    (x.rx.st ≠ .idle → y.rx = x.rx.idled) ∧
    (x.rx.st = .starved → y.held = x.held ∧ t.pool = s.pool ∧ t.ring = s.ring) ∧
    (x.rx.reserves = true → t.pool.free = s.pool.free ++ s.openChain s.chsel ∧
      y.held = x.held - (s.openChain s.chsel).length ∧
      (∀ b, t.pool.links.get b = if b ∈ s.openChain s.chsel then none else s.pool.links.get b) ∧
      { t.pool with free := s.pool.free, links := s.pool.links, low := s.pool.low } = s.pool ∧
      t.ring = { s.ring with reserved := s.ring.reserved - 1 }) := by
  intro x t y
  have hstored := withEnablesOf_chan s w
  have hrx : ((s.withEnablesOf w).chan s.chsel).rx = (s.chan s.chsel).rx := by rw [hstored]
  have hheld : ((s.withEnablesOf w).chan s.chsel).held = (s.chan s.chsel).held := by rw [hstored]
  have ht : t = discardMsg s.chsel (s.withEnablesOf w) := rxSwitched_of_cleared hold hnew
  have hunit := discardMsg_rx_same s.chsel (s.withEnablesOf w)
  have hring := discardMsg_ring_eq s.chsel (s.withEnablesOf w)
  rw [hrx] at hunit hring
  rw [← ht] at hunit hring
  have hbare : x.rx.reserves = false → y.held = x.held ∧ t.pool = s.pool ∧ t.ring = s.ring := by
    intro h
    have hnone := discardMsg_bare (c := s.chsel) (s := s.withEnablesOf w) (by rw [hrx]; exact h)
    refine ⟨?_, ?_, ?_⟩
    · change (t.chan s.chsel).held = _
      rw [ht, hnone, chan_setChan_same]
      exact hheld
    · rw [ht, hnone]
      rfl
    · rw [ht, hnone]
      rfl
  refine ⟨fun h => ⟨hunit.trans (if_pos h), hbare ?_⟩, fun h => hunit.trans (if_neg h), fun h => hbare ?_, fun h => ?_⟩
  · rw [RxUnit.reserves, h]; rfl
  · rw [RxUnit.reserves, h]; rfl
  · obtain ⟨hfree, hcount, hlinks, hpool⟩ := discardMsg_blocks (c := s.chsel) (s := s.withEnablesOf w) (by rw [hrx]; exact h)
    have hchain : (s.withEnablesOf w).openChain s.chsel = s.openChain s.chsel :=
      congrArg (fun u : RxUnit => s.pool.chain u.first) hrx
    rw [← ht, hchain] at hfree hcount hlinks
    rw [← ht] at hpool
    rw [hheld] at hcount
    rw [if_pos h] at hring
    exact ⟨hfree, hcount, hlinks, hpool, hring⟩

theorem offChannel_tx (s : State) (w : Word) : (s.offChannel w).tx =
    if (s.chan s.chsel).cfg.tx && !w.getLsbD 1 then (s.chan s.chsel).tx.disabled else (s.chan s.chsel).tx := by
  rw [← (rxSwitched_fields s w).2.1]
  rfl

theorem offChannel_remote (s : State) (w : Word) :
    (s.offChannel w).fl.held = (if (s.chan s.chsel).cfg.fc && !w.getLsbD 2 then false
      else ((s.rxSwitched w).chan s.chsel).fl.held) ∧
    (s.offChannel w).fl.holdCnt = (if (s.chan s.chsel).cfg.fc && !w.getLsbD 2 then 0
      else ((s.rxSwitched w).chan s.chsel).fl.holdCnt) := by
  unfold State.offChannel Channel.switchedOff
  dsimp only
  split
  · exact ⟨rfl, rfl⟩
  · exact ⟨rfl, rfl⟩

/-- Settles O50. -/
theorem enableWritesTakeEffect : Obligations.EnableWritesTakeEffect := by
  unfold Obligations.EnableWritesTakeEffect
  refine ⟨fun w s hs h0 h2 hbars i hi => ?_, fun w s hs hfree i hi => ?_⟩
  · rw [exec_chcfg0 hs hi]
    exact congrArg _ (if_pos (enablesBarred_iff.mpr ⟨h0, h2, hbars⟩))
  have hexec := exec_chcfg0 hs hi
  rw [writeChcfg0_accepted fun hb => ?accepted] at hexec
  case accepted =>
    obtain ⟨h0, h2, hbars⟩ := enablesBarred_iff.mp hb
    rcases hbars with h | ⟨hp, h⟩
    · exact (hfree ⟨h0, h2⟩).1 h
    · exact (hfree ⟨h0, h2⟩).2 hp h
  obtain ⟨hcfg, htx, hpeer, hsticky⟩ := rxSwitched_fields s w
  obtain ⟨-, hhost, hheld, hcnt⟩ := aside_iff.mp (rxSwitched_aside s w)
  refine ⟨_, hexec, ?_⟩
  dsimp only
  have hfollow := chcfg0_flowsFollow hexec
  have hown : ((s.rxSwitched w).setChan s.chsel (s.offChannel w).settled).chan s.chsel = (s.offChannel w).settled :=
    chan_setChan_same ..
  have hother : ∀ d, d ≠ s.chsel → ((s.rxSwitched w).setChan s.chsel (s.offChannel w).settled).chan d = (s.rxSwitched w).chan d :=
    fun d hd => chan_setChan_other _ _ hd
  rw [hown, settled_cfg, settled_rx, settled_held, settled_tx, settled_flHeld, settled_holdCnt, settled_asserted, settled_quota,
    settled_pool, settled_host, settled_peer, settled_sticky]
  refine ⟨hcfg, rxSwitched_discards, fun h => ?_, fun hold hnew => (offChannel_tx s w).trans ?_,
    fun h => (offChannel_tx s w).trans ?_, fun hold hnew => ?_, fun h => ?_, ?_, ?_, hfollow, hpeer, hsticky,
    rxSwitched_entries s w, fun d hd => ?_, fun h d hd => ?_, ?_⟩
  · have hkept := rxSwitched_of_kept h
    refine ⟨?_, ?_, ?_, ?_⟩
    · change ((s.rxSwitched w).chan s.chsel).rx = _
      rw [hkept, withEnablesOf_chan]
    · change ((s.rxSwitched w).chan s.chsel).held = _
      rw [hkept, withEnablesOf_chan]
    · change (s.rxSwitched w).pool = _
      rw [hkept]
      rfl
    · change (s.rxSwitched w).ring = _
      rw [hkept]
      rfl
  · rw [hold, hnew]
    rfl
  · refine if_neg ?_
    rcases h with h | h
    · simp [h]
    · simp [h]
  · rw [(offChannel_remote s w).1, (offChannel_remote s w).2, hold, hnew]
    exact ⟨rfl, rfl⟩
  · have hnot : ((s.chan s.chsel).cfg.fc && !w.getLsbD 2) = false := by
      rcases h with h | h
      · simp [h]
      · simp [h]
    rw [(offChannel_remote s w).1, (offChannel_remote s w).2, hnot]
    exact ⟨hheld, hcnt⟩
  · rw [pauseWanted, show (s.offChannel w).cfg = _ from hcfg]
  · exact (switchedOff_host ..).trans hhost
  · rw [hother d hd]
    exact rxSwitched_other hd w
  · rw [hother d hd, rxSwitched_of_kept h]
    exact chan_setChan_other _ _ hd
  · exact rxSwitched_frame s w

end Sys2Proof.Machine
end

section
/-! PROOFS. FLUSH (spec 04, R68 to R72; 06, R117; 08, R142 to R146). -/

namespace Sys2Proof.Machine

open Sys2Proof

/-! ## The state on the way -/

/-- The state with the transmit unit of a channel flushed (R69). -/
def State.txFlushed (s : State) (c : Chan) : State := s.setChan c { s.chan c with tx := (s.chan c).tx.flush }

/-- That state with the channel's message discarded too (R70). -/
def State.discardFlushed (s : State) (c : Chan) : State := discardMsg c (s.txFlushed c)

/-- A channel with its receive unit idled, its HOST cause and remote pause cleared and no sticky flag (R70, R71). -/
def Channel.rinsed (x : Channel) : Channel :=
  { x with rx := x.rx.idled, fl := { x.fl with host := false, held := false, holdCnt := 0 }, sticky := {} }

theorem flushCmd_eq (c : Chan) (s : State) : flushCmd c s = setCmd .done .none (BitVec.ofNat 8 (0x10 + c.val))
    ((s.discardFlushed c).setChan c ((s.discardFlushed c).chan c).rinsed.quotaSettled) := by
  have hrest : ∀ u : State, (evalQuota c (((u.setRx c (u.chan c).rx.idled)).setFl c
      { ((u.setRx c (u.chan c).rx.idled).chan c).fl with host := false, held := false, holdCnt := 0 })).setSticky c {} =
        u.setChan c (u.chan c).rinsed.quotaSettled := by
    intro u
    rw [evalQuota_eq, setFl_eq, setRx_eq, setSticky_eq, setChan_setChan, setChan_setChan, setChan_setChan, chan_setChan_same,
      chan_setChan_same, chan_setChan_same]
    refine congrArg (u.setChan c) ?_
    rw [Channel.quotaSettled, Channel.quotaSettled, settled_eq, settled_eq]
    rfl
  exact congrArg (setCmd .done .none (BitVec.ofNat 8 (0x10 + c.val))) (hrest (s.discardFlushed c))

theorem exec_flush (c : Chan) {s : State} (h : s.resetn = true) : exec (.flush c) s = .next (flushCmd c s) :=
  congrArg _ (outOfReset_high _ h)

theorem txFlushed_sameFlow (s : State) (c : Chan) : SameFlow s (s.txFlushed c) := SameFlow.setChan rfl rfl rfl rfl rfl

theorem txFlushed_chan (s : State) (c : Chan) : (s.txFlushed c).chan c = { s.chan c with tx := (s.chan c).tx.flush } :=
  chan_setChan_same ..

theorem txFlushed_rx (s : State) (c : Chan) : ((s.txFlushed c).chan c).rx = (s.chan c).rx := by rw [txFlushed_chan]

/-- The channel's fields but its receive unit, its flow unit and its held count. -/
theorem discardFlushed_fields (s : State) (c : Chan) :
    ((s.discardFlushed c).chan c).cfg = (s.chan c).cfg ∧ ((s.discardFlushed c).chan c).tx = (s.chan c).tx.flush ∧
    ((s.discardFlushed c).chan c).peer = (s.chan c).peer := by
  have h := discardMsg_chan_frame c c (s.txFlushed c)
  rw [txFlushed_chan] at h
  have hcfg := congrArg Channel.cfg h
  have htx := congrArg Channel.tx h
  have hpeer := congrArg Channel.peer h
  exact ⟨hcfg, htx, hpeer⟩

theorem discardFlushed_other {s : State} {c d : Chan} (hd : d ≠ c) :
    { (s.discardFlushed c).chan d with fl := (s.chan d).fl } = s.chan d := by
  have h := discardMsg_chan_other hd (s.txFlushed c)
  have hsame : (s.txFlushed c).chan d = s.chan d := chan_setChan_other _ _ hd
  rw [hsame] at h
  exact h

theorem discardFlushed_frame (s : State) (c : Chan) :
    { s.discardFlushed c with chans := s.chans, pool := s.pool, ring := s.ring } = s := by
  have h := congrArg (fun u : State => { u with chans := s.chans }) (discardMsg_frame c (s.txFlushed c))
  exact h

theorem discardFlushed_aside (s : State) (c : Chan) :
    ((s.discardFlushed c).chan c).fl.aside = (s.chan c).fl.aside := by
  rw [State.discardFlushed, discardMsg_aside, txFlushed_chan]

theorem discardFlushed_idled (s : State) (c : Chan) : ((s.discardFlushed c).chan c).rx.idled = (s.chan c).rx.idled := by
  rw [State.discardFlushed, discardMsg_rx_same, txFlushed_rx]
  split
  · rfl
  · rfl

theorem discardFlushed_ring (s : State) (c : Chan) : (s.discardFlushed c).ring =
    { s.ring with reserved := if (s.chan c).rx.reserves then s.ring.reserved - 1 else s.ring.reserved } := by
  rw [State.discardFlushed, discardMsg_ring_eq, txFlushed_rx]
  rfl

theorem discardFlushed_blocks {s : State} {c : Chan} (h : (s.chan c).rx.reserves = true) :
    (s.discardFlushed c).pool.free = s.pool.free ++ s.openChain c ∧
    ((s.discardFlushed c).chan c).held = (s.chan c).held - (s.openChain c).length ∧
    (∀ b, (s.discardFlushed c).pool.links.get b = if b ∈ s.openChain c then none else s.pool.links.get b) ∧
    { (s.discardFlushed c).pool with free := s.pool.free, links := s.pool.links, low := s.pool.low } = s.pool := by
  have hblocks := discardMsg_blocks (c := c) (s := s.txFlushed c) (by rw [txFlushed_rx]; exact h)
  have hchain : (s.txFlushed c).openChain c = s.openChain c :=
    congrArg (fun u : RxUnit => s.pool.chain u.first) (txFlushed_rx s c)
  rw [hchain, txFlushed_chan] at hblocks
  exact hblocks

theorem discardFlushed_bare {s : State} {c : Chan} (h : (s.chan c).rx.reserves = false) :
    (s.discardFlushed c).pool = s.pool ∧ ((s.discardFlushed c).chan c).held = (s.chan c).held := by
  rw [State.discardFlushed, discardMsg_bare (by rw [txFlushed_rx]; exact h)]
  refine ⟨rfl, ?_⟩
  rw [chan_setChan_same, txFlushed_chan]

/-! ## The flow units follow -/

/-- After the discard the causes are right and every local pause is what they make it. -/
theorem discardFlushed_pauseLaw {s : State} (c : Chan) (hc : s.configLaw) (hp : s.pauseLaw) :
    (s.discardFlushed c).causesLaw ∧ ∀ d, ((s.discardFlushed c).chan d).pauseKept := by
  obtain ⟨hcauses, hkept⟩ := (pauseLaw_iff s).mp hp
  have hmoves : Moves s (s.discardFlushed c) := (setTx_moves fun _ => flush_listLaw _).trans (discardMsg_moves c _)
  exact ⟨(hmoves.keep (fun _ _ hm => hm.keeps_causesHold) ⟨hc, hcauses⟩).2,
    fun d => hmoves.keep (P := fun u => (u.chan d).pauseKept) (fun _ _ hm => hm.keeps_pauseKept d) (hkept d)⟩

/-- With the QUOTA cause right its evaluation is one of the local pause alone. -/
theorem quotaSettled_of_quotaFits {x : Channel} (h : x.quotaFits) : x.quotaSettled = x.settled := by
  have hquota : quotaCause x = x.fl.quota := by
    rw [quotaCause]
    split_ifs with hhw hlw
    · exact (h.on hhw).symm
    · exact (h.off hlw).symm
    · rfl
  rw [Channel.quotaSettled, hquota]

theorem flush_flowsFollow {s t : State} {c : Chan} {i : Instr} (hexec : exec i s = .next t)
    (ht : ∀ d, t.chan d = ((s.discardFlushed c).setChan c ((s.discardFlushed c).chan c).rinsed.quotaSettled).chan d) :
    flowsFollow [c] s t := by
  refine flowsFollow_of (up := false) hexec fun hc hp => ?_
  obtain ⟨hcauses, hkept⟩ := discardFlushed_pauseLaw c hc hp
  have hquota : ((s.discardFlushed c).chan c).rinsed.quotaFits := ⟨(hcauses.quota c).on, (hcauses.quota c).off⟩
  rw [quotaSettled_of_quotaFits hquota] at ht
  obtain ⟨first, hfreed⟩ := discardMsg_frees c (s.txFlushed c)
  have hmoves : FlowsMove false [] s (s.discardFlushed c) := (txFlushed_sameFlow s c).freed hfreed hp
  have hleans : ((s.discardFlushed c).chan c).rinsed.leans false :=
    leans_host (x := (s.discardFlushed c).chan c) (leans_of_kept (hkept c)) fun _ => rfl
  refine (hmoves.evaluated (c := c) (z := ((s.discardFlushed c).chan c).rinsed) (.of_same rfl rfl rfl rfl rfl) rfl rfl rfl hleans).congr (fun _ => rfl) (fun d => ?_)
    (fun d => ?_) fun d => ?_
  · rw [ht]
  · rw [ht]
  · rw [ht]

/-- After its evaluation the local pause is what the enables and the causes make it (R145). -/
theorem quotaSettled_asserted (x : Channel) : x.quotaSettled.fl.asserted =
    (x.cfg.rx && x.cfg.fc && (x.quotaSettled.fl.quota || x.quotaSettled.fl.pool || x.quotaSettled.fl.host)) := by
  rw [Channel.quotaSettled, settled_asserted, settled_quota, settled_pool, settled_host]
  rfl

/-- Settles O51. -/
theorem flushClearsTheChannel : Obligations.FlushClearsTheChannel := by
  unfold Obligations.FlushClearsTheChannel
  intro c s hs
  have hexec := exec_flush c hs
  rw [flushCmd_eq] at hexec
  refine ⟨_, hexec, rfl, ?_⟩
  obtain ⟨hcfg, htx, hpeer⟩ := discardFlushed_fields s c
  obtain ⟨hflight, -⟩ := aside_iff.mp (discardFlushed_aside s c)
  have hfollow := flush_flowsFollow hexec fun d => chan_setCmd ..
  have hown : (setCmd .done .none (BitVec.ofNat 8 (0x10 + c.val)) ((s.discardFlushed c).setChan c
      ((s.discardFlushed c).chan c).rinsed.quotaSettled)).chan c = ((s.discardFlushed c).chan c).rinsed.quotaSettled :=
    chan_setChan_same ..
  have hother : ∀ d, d ≠ c → (setCmd .done .none (BitVec.ofNat 8 (0x10 + c.val)) ((s.discardFlushed c).setChan c
      ((s.discardFlushed c).chan c).rinsed.quotaSettled)).chan d = (s.discardFlushed c).chan d :=
    fun d hd => chan_setChan_other _ _ hd
  have hunit : ((s.discardFlushed c).chan c).rinsed.quotaSettled.tx = (s.chan c).tx.flush := (settled_tx _).trans htx
  have hlevels : ((s.discardFlushed c).chan c).rinsed.quotaSettled.cfg = (s.chan c).cfg := (settled_cfg _).trans hcfg
  dsimp only
  rw [hown, hunit, hlevels]
  refine ⟨rfl, (settled_peer _).trans hpeer, settled_sticky _, rfl, rfl, rfl, rfl, rfl, rfl, rfl, rfl, rfl, rfl,
    (settled_rx _).trans (discardFlushed_idled s c), settled_host _, settled_flHeld _, settled_holdCnt _,
    (settled_flight _).trans hflight, ?_, hfollow, discardFlushed_ring s c, fun h => ?_, fun h => ?_, fun d hd => ?_, ?_, ?_⟩
  · rw [quotaSettled_asserted, show ((s.discardFlushed c).chan c).rinsed.cfg = _ from hcfg]
  · obtain ⟨hfree, hheld, hlinks, hpool⟩ := discardFlushed_blocks h
    exact ⟨hfree, (settled_held _).trans hheld, hlinks, hpool⟩
  · obtain ⟨hpool, hheld⟩ := discardFlushed_bare h
    exact ⟨hpool, (settled_held _).trans hheld⟩
  · rw [hother d hd]
    exact discardFlushed_other hd
  · rw [Bool.eq_iff_iff, txSpace_iff, hown, hunit, hlevels]
    simp [TxUnit.flush]
  · exact congrArg (fun u : State => { u with cmd := s.cmd }) (discardFlushed_frame s c)

end Sys2Proof.Machine
end

section
/-! PROOFS. Bytes refused at TXDATA (spec 05, R79, R80). -/

namespace Sys2Proof.Machine

open Sys2Proof

/-! ## The unit after a refused byte -/

/-- A channel that has refused a byte, with its transmit unit as it then is (R79). -/
def Channel.overflowed (x : Channel) (u : TxUnit) : Channel := { x with tx := u, sticky := { x.sticky with txOverflow := true } }

/-- The transmit unit after a refused byte with the LAST mark: the message is lost (R80). -/
def TxUnit.lost (u : TxUnit) : TxUnit :=
  if u.hasOpen then { u.dropNewest with lastDrop := .overflow } else { u with lone := false, lastDrop := .overflow }

theorem lost_of_open {u : TxUnit} {old : List TxRecord} {r : TxRecord} (h : u.records = old ++ [r]) (hr : r.closed = false) :
    u.lost = { u with records := old, lastDrop := .overflow } := by
  rw [TxUnit.lost, TxUnit.hasOpen_append h, hr, if_pos (by decide), TxUnit.dropNewest_append h]

theorem lost_of_none {u : TxUnit} (h : u.hasOpen = false) : u.lost = { u with lone := false, lastDrop := .overflow } :=
  if_neg (by rw [h]; decide)

theorem refuse_of_open {u : TxUnit} {old : List TxRecord} {r : TxRecord} (h : u.records = old ++ [r]) (hr : r.closed = false)
    (last : Bool) : u.refuse last = { u with records := old ++ [{ r with poisoned := true }] } := by
  rw [TxUnit.refuse, TxUnit.hasOpen_append h, if_pos (by rw [hr]; rfl), TxUnit.modNewest_append h]

theorem refuse_of_none {u : TxUnit} (h : u.hasOpen = false) (last : Bool) :
    u.refuse last = if last then u else { u with lone := true } := if_neg (by rw [h]; decide)

/-- A refused byte changes the list and the flag that the unit holds alone; its loss also the last drop reason. -/
theorem refuse_list (u : TxUnit) : { u.refuse false with records := u.records, lone := u.lone } = u := by
  cases hopen : u.hasOpen with
  | true =>
    obtain ⟨old, r, h, hr⟩ := hasOpen_true hopen
    rw [refuse_of_open h hr]
  | false => rw [refuse_of_none hopen]; rfl

theorem refuse_lastDrop (u : TxUnit) : (u.refuse false).lastDrop = u.lastDrop := by
  have h := congrArg TxUnit.lastDrop (refuse_list u)
  exact h

theorem refuse_frame (u : TxUnit) :
    { u.refuse false with records := u.records, lone := u.lone, lastDrop := u.lastDrop } = u := by
  have h := congrArg (fun v : TxUnit => { v with lastDrop := u.lastDrop }) (refuse_list u)
  exact h

theorem lost_frame (u : TxUnit) : { u.lost with records := u.records, lone := u.lone, lastDrop := u.lastDrop } = u := by
  unfold TxUnit.lost
  split
  · rfl
  · rfl

theorem lost_lastDrop (u : TxUnit) : u.lost.lastDrop = .overflow := by
  unfold TxUnit.lost
  split
  · rfl
  · rfl

theorem lost_lone (u : TxUnit) : u.lost.lone = (u.lone && u.hasOpen) := by
  cases hopen : u.hasOpen with
  | true => rw [TxUnit.lost, if_pos hopen, Bool.and_true]; rfl
  | false => rw [lost_of_none hopen, Bool.and_false]

/-- The LAST mark where no message is open: the one-byte message is lost (R80). -/
theorem closeWritten_none (c : Chan) (s : State) {u : TxUnit} (h : u.hasOpen = false) :
    closeWritten c (s.setTx c u) = raiseDropped c .overflow (s.setTx c { u with lone := false, lastDrop := .overflow }) := by
  simp [closeWritten, h, reportDrop_setTx]

/-- A refused byte, before a LAST mark closes its message. -/
theorem writeTxdata_refused {c : Chan} {w : Word} {s : State} (h : (s.chan c).tx.accepts = false) :
    writeTxdata c w s =
      (if w.getLsbD 8 then closeWritten c else id)
        (s.setChan c ((s.chan c).overflowed ((s.chan c).tx.refuse (w.getLsbD 8)))) := by
  have hstore : (s.setTx c ((s.chan c).tx.refuse (w.getLsbD 8))).setSticky c
      { ((s.setTx c ((s.chan c).tx.refuse (w.getLsbD 8))).chan c).sticky with txOverflow := true } =
      s.setChan c ((s.chan c).overflowed ((s.chan c).tx.refuse (w.getLsbD 8))) := by
    rw [setSticky_eq, setTx_eq, setChan_setChan, chan_setChan_same]
    rfl
  rw [← hstore, writeTxdata]
  dsimp only
  rw [if_neg (c := (s.chan c).tx.accepts = true) (by rw [h]; decide)]
  unfold wbit
  split
  · rfl
  · rfl

theorem writeTxdata_refused_more {c : Chan} {w : Word} {s : State} (h : (s.chan c).tx.accepts = false)
    (hlast : w.getLsbD 8 = false) :
    writeTxdata c w s = s.setChan c ((s.chan c).overflowed ((s.chan c).tx.refuse false)) := by
  rw [writeTxdata_refused h, hlast]
  rfl

theorem writeTxdata_refused_last {c : Chan} {w : Word} {s : State} (h : (s.chan c).tx.accepts = false)
    (hlast : w.getLsbD 8 = true) :
    writeTxdata c w s = raiseDropped c .overflow (s.setChan c ((s.chan c).overflowed (s.chan c).tx.lost)) := by
  have hset : ∀ u : TxUnit, (s.setChan c ((s.chan c).overflowed (s.chan c).tx)).setTx c u =
      s.setChan c ((s.chan c).overflowed u) := fun u => by
    rw [setTx_eq, setChan_setChan, chan_setChan_same]
    rfl
  rw [writeTxdata_refused h, hlast, if_pos rfl, ← hset (TxUnit.refuse _ _), ← hset (TxUnit.lost _)]
  cases hopen : (s.chan c).tx.hasOpen with
  | true =>
    obtain ⟨old, r, hrecords, hr⟩ := hasOpen_true hopen
    rw [refuse_of_open hrecords hr, lost_of_open hrecords hr]
    exact closeWritten_poisoned c _ (m := { r with poisoned := true }) rfl hr rfl
  | false =>
    rw [refuse_of_none hopen, lost_of_none hopen, if_pos rfl]
    exact closeWritten_none c _ hopen

/-- Settles O36. -/
theorem txdataByteRefused : Obligations.TxdataByteRefused := by
  unfold Obligations.TxdataByteRefused
  intro c w s hs x last isOpen hfull
  have hisOpen : isOpen = x.tx.hasOpen := rfl
  have haccepts : x.tx.accepts = false := by
    rw [Bool.eq_false_iff, ne_eq, TxUnit.accepts_iff]
    rintro ⟨hfree, hroom⟩
    rcases hfull with h | ⟨hnone, h⟩
    · omega
    · rw [hisOpen] at hnone
      rcases hroom with hroom | hroom
      · rw [hnone] at hroom; cases hroom
      · omega
  rw [exec_txdata c w hs]
  rw [hisOpen]
  cases hlast : w.getLsbD 8 with
  | false =>
    rw [writeTxdata_refused_more haccepts hlast]
    refine ⟨_, rfl, onlyChannel_setChan rfl, rfl, ?_⟩
    rw [chan_setChan_same, show last = false from hlast]
    refine ⟨rfl, rfl, refuse_frame _, fun h => (by cases h), fun _ => ⟨rfl, refuse_lastDrop _⟩,
      fun h => ?_, fun old r hrecords hr => congrArg TxUnit.records (refuse_of_open hrecords hr false)⟩
    have hrecords := congrArg TxUnit.records (refuse_of_none h false)
    have hlone := congrArg TxUnit.lone (refuse_of_none h false)
    exact ⟨hrecords, fun _ => hlone⟩
  | true =>
    rw [writeTxdata_refused_last haccepts hlast]
    refine ⟨_, rfl, onlyChannel_setChan rfl, rfl, ?_⟩
    have hown : (raiseDropped c .overflow (s.setChan c ((s.chan c).overflowed (s.chan c).tx.lost))).chan c =
        (s.chan c).overflowed (s.chan c).tx.lost := chan_setChan_same ..
    rw [hown, show last = true from hlast]
    refine ⟨rfl, rfl, lost_frame _, fun _ => ⟨raiseDropped_droppedOnly c .overflow s, lost_lastDrop _, lost_lone _⟩,
      fun h => (by cases h), fun h => ⟨?_, fun h => (by cases h)⟩,
      fun old r hrecords hr => congrArg TxUnit.records (lost_of_open hrecords hr)⟩
    have hnone := congrArg TxUnit.records (lost_of_none h)
    exact hnone

end Sys2Proof.Machine
end

section
/-! PROOFS. The word of a TX slot (spec 01, R10; 05, R81, R82; 08, R148). -/

namespace Sys2Proof.Machine

open Sys2Proof

/-! ## The four steps of the word choice (R81) -/

theorem chooseKind_abort {x : Channel} (htx : x.cfg.tx = true) (howed : x.tx.abortOwed = true) : chooseKind x = .abort :=
  if_pos (by rw [htx, howed]; rfl)

theorem chooseKind_of_not_abort {x : Channel} (h : ¬ (x.cfg.tx = true ∧ x.tx.abortOwed = true)) : chooseKind x =
    match x.fl.owed with
    | some .pause => .pause
    | some .resume => .resume
    | none => if x.cfg.tx && !x.fl.held && !x.tx.abortOwed then x.tx.messageWord else .idle :=
  if_neg (by rw [Bool.and_eq_true]; exact h)

theorem chooseKind_pause {x : Channel} (h : ¬ (x.cfg.tx = true ∧ x.tx.abortOwed = true)) (hp : x.fl.pauseOwed = true) :
    chooseKind x = .pause := by
  have howed : x.fl.owed = some .pause := if_pos hp
  rw [chooseKind_of_not_abort h, howed]

theorem chooseKind_resume {x : Channel} (h : ¬ (x.cfg.tx = true ∧ x.tx.abortOwed = true)) (hp : x.fl.pauseOwed = false)
    (hr : x.fl.resumeOwed = true) : chooseKind x = .resume := by
  have howed : x.fl.owed = some .resume := by rw [FlowUnit.owed, hp, hr]; rfl
  rw [chooseKind_of_not_abort h, howed]

theorem chooseKind_unowed {x : Channel} (h : ¬ (x.cfg.tx = true ∧ x.tx.abortOwed = true)) (hp : x.fl.pauseOwed = false)
    (hr : x.fl.resumeOwed = false) :
    chooseKind x = if x.cfg.tx = true ∧ x.fl.held = false ∧ x.tx.abortOwed = false then x.tx.messageWord else .idle := by
  have howed : x.fl.owed = none := by rw [FlowUnit.owed, hp, hr]; rfl
  rw [chooseKind_of_not_abort h, howed]
  simp only [Bool.and_eq_true, Bool.not_eq_true', and_assoc]

/-- The byte at the head's offset, as DATA or as LAST, or IDLE without a closed head (R82). -/
theorem messageWord_of_head {u : TxUnit} {h : TxRecord} (hh : u.records.head? = some h) : u.messageWord =
    if h.closed then (if u.offset + 1 < h.bytes.length then .data u.offset else .last u.offset) else .idle := by
  obtain ⟨rest, hrest⟩ := List.head?_eq_some_iff.mp hh
  rw [TxUnit.messageWord, hrest]

theorem headByte_of_head {u : TxUnit} {h : TxRecord} (hh : u.records.head? = some h) (k : Nat) :
    u.headByte k = h.bytes.getD k 0 := by
  obtain ⟨rest, hrest⟩ := List.head?_eq_some_iff.mp hh
  rw [TxUnit.headByte, hrest]

theorem messageWord_of_no_closed {u : TxUnit} (h : ∀ r, u.records.head? = some r → r.closed = false) : u.messageWord = .idle := by
  unfold TxUnit.messageWord
  split
  · rfl
  · next r rest hrecords => rw [if_neg]; rw [h r (by rw [hrecords]; rfl)]; decide

/-! ## The chosen word (R10, R148) -/

/-- A flow unit of which a chosen word of kind k takes its obligation (R148). -/
def FlowUnit.takes (u : FlowUnit) : TxKind → FlowUnit
  | .pause => u.take .pause
  | .resume => u.take .resume
  | _ => u

theorem keepWord_eq (c : Chan) (k : TxKind) (s : State) : keepWord c k s = s.setChan c { s.chan c with
    tx := { (s.chan c).tx with
      flight := some { kind := k, orphan := false }, sending := (s.chan c).tx.sending || k.isMessage }
    fl := (s.chan c).fl.takes k } := by
  have hflow : ∀ (u : TxUnit) (f : FlowUnit), (s.setTx c u).setFl c f = s.setChan c { s.chan c with tx := u, fl := f } :=
    fun u f => by rw [setFl_eq, setTx_eq, setChan_setChan, chan_setChan_same]
  have hfl : ∀ u : TxUnit, ((s.setTx c u).chan c).fl = (s.chan c).fl := fun u => by rw [setTx_eq, chan_setChan_same]
  cases k with
  | pause => exact (hflow _ _).trans (by rw [hfl]; rfl)
  | resume => exact (hflow _ _).trans (by rw [hfl]; rfl)
  | idle | data | last | abort => rfl

theorem wordBits_getD (w : SlotWord) (i : Nat) : (wordBits w).getD i true = if i < 11 then w.getMsbD i else true := by
  unfold wordBits
  split
  · next h => simp [h]
  · next h => simp [h]

/-- The bits still to come of a chosen word (R1, R10). -/
theorem pullsData_of_word {s : State} {x : Slot} {w : SlotWord} (hslot : s.slot = .inSlot x) (hword : x.word = some w) :
    s.pullsData = (decide (s.dataHeld ≠ .released) || !(wordBits w).getD x.bits.length true) := by
  rw [State.pullsData, DataHold.pulls_eq, State.slotPulls, hslot]
  dsimp only
  rw [hword, wordBits_getD]
  dsimp only
  split
  · next h => rw [decide_eq_true h, Bool.true_and]
  · next h => rw [decide_eq_false h]; rfl

theorem exec_txSlot {x : Slot} {s : State} (hs : s.resetn = true) (hslot : s.slot = .inSlot x) (hwork : x.work = .tx)
    (hword : x.word = none) : exec .txSlot s = .next (driveWord x s) := by
  have hexec : exec .txSlot s = .next (txSlotStep s) := congrArg _ (outOfReset_high _ hs)
  rw [hexec, txSlotStep, hslot]
  exact congrArg _ (if_pos (by rw [decide_eq_true hwork, hword]; rfl))

/-- The TX slot of a channel whose word is of kind k. -/
theorem txSlot_chosen {x : Slot} {s : State} (hs : s.resetn = true) (hslot : s.slot = .inSlot x) (hwork : x.work = .tx)
    (hword : x.word = none) {k : TxKind} {w : SlotWord} {sending : Bool} {fl : FlowUnit}
    (hk : chooseKind (s.chan x.entry.chan) = k) (hw : (s.chan x.entry.chan).tx.wordOf k = w)
    (hsends : ((s.chan x.entry.chan).tx.sending || k.isMessage) = sending) (hfl : (s.chan x.entry.chan).fl.takes k = fl) :
    ∃ t, exec .txSlot s = .next t ∧ t.slot = .inSlot { x with word := some w } ∧
      t.pullsData = (decide (s.dataHeld ≠ .released) || !(wordBits w).getD x.bits.length true) ∧
      onlyChannel x.entry.chan s t ∧
      t.chan x.entry.chan = { s.chan x.entry.chan with
        tx := { (s.chan x.entry.chan).tx with flight := some { kind := k, orphan := false }, sending := sending }
        fl := fl } ∧
      { t with chans := s.chans, slot := s.slot } = s := by
  subst hk hw hsends hfl
  have hdrive : driveWord x s = { keepWord x.entry.chan (chooseKind (s.chan x.entry.chan)) s with
    slot := .inSlot { x with word := some ((s.chan x.entry.chan).tx.wordOf (chooseKind (s.chan x.entry.chan))) } } := rfl
  rw [keepWord_eq] at hdrive
  refine ⟨_, (exec_txSlot hs hslot hwork hword).trans (congrArg _ hdrive), rfl,
    pullsData_of_word (x := { x with word := some _ }) rfl rfl,    onlyChannel_setChan rfl, chan_setChan_same .., rfl⟩

/-- Settles O31. -/
theorem txSlotChoosesWord : Obligations.TxSlotChoosesWord := by
  unfold Obligations.TxSlotChoosesWord
  intro x s hs hslot hwork hword c y chosen aborts sends
  refine ⟨fun h => ?_, fun h hp => ?_, fun h hp hr => ?_, fun hp hr h head hhead hclosed => ⟨fun hlt => ?_, fun heq => ?_⟩,
    fun h hp hr hnone => ?_⟩
  · exact txSlot_chosen hs hslot hwork hword (chooseKind_abort h.1 h.2) rfl (Bool.or_false _) rfl
  · exact txSlot_chosen hs hslot hwork hword (chooseKind_pause h hp) rfl (Bool.or_false _) rfl
  · exact txSlot_chosen hs hslot hwork hword (chooseKind_resume h hp hr) rfl (Bool.or_false _) rfl
  · have hk : chooseKind y = .data y.tx.offset := by
      rw [chooseKind_unowed (fun ha => Bool.eq_false_iff.mp h.2.2 ha.2) hp hr, if_pos h,
        messageWord_of_head hhead, if_pos hclosed, if_pos hlt]
    exact txSlot_chosen hs hslot hwork hword hk (congrArg (buildWord _) (headByte_of_head hhead _)) (Bool.or_true _) rfl
  · have hk : chooseKind y = .last y.tx.offset := by
      rw [chooseKind_unowed (fun ha => Bool.eq_false_iff.mp h.2.2 ha.2) hp hr, if_pos h,
        messageWord_of_head hhead, if_pos hclosed, if_neg (by omega)]
    exact txSlot_chosen hs hslot hwork hword hk (congrArg (buildWord _) (headByte_of_head hhead _)) (Bool.or_true _) rfl
  · have hk : chooseKind y = .idle := by
      rw [chooseKind_unowed h hp hr]
      split
      · next hsends => exact messageWord_of_no_closed (hnone.resolve_left fun hnot => hnot hsends)
      · rfl
    exact txSlot_chosen hs hslot hwork hword hk (show buildWord .idle 0 = 0 by decide) (Bool.or_false _) rfl

end Sys2Proof.Machine
end

section
/-! PROOFS. The echo of a TX slot (spec 01, R11; 05, R72, R83 to R88, R93; 08, R149). -/

namespace Sys2Proof.Machine

open Sys2Proof

/-! ## One channel and the event unit changed -/

/-- State s with channel c as z and the event unit as e. -/
def State.leaving (s : State) (c : Chan) (z : Channel) (e : EventUnit) : State := { s.setChan c z with ev := e }

theorem leaving_chan (s : State) (c : Chan) (z : Channel) (e : EventUnit) : (s.leaving c z e).chan c = z := chan_setChan_same ..

theorem leaving_setTx (s : State) (c : Chan) (z : Channel) (e : EventUnit) (u : TxUnit) :
    (s.leaving c z e).setTx c u = s.leaving c { z with tx := u } e := by
  have h : (s.leaving c z e).setTx c u = { (s.setChan c z).setTx c u with ev := e } := rfl
  rw [h, setTx_eq, setChan_setChan, chan_setChan_same]
  rfl

theorem leaving_setFl (s : State) (c : Chan) (z : Channel) (e : EventUnit) (u : FlowUnit) :
    (s.leaving c z e).setFl c u = s.leaving c { z with fl := u } e := by
  have h : (s.leaving c z e).setFl c u = { (s.setChan c z).setFl c u with ev := e } := rfl
  rw [h, setFl_eq, setChan_setChan, chan_setChan_same]
  rfl

theorem setTx_leaving (s : State) (c : Chan) (u : TxUnit) : s.setTx c u = s.leaving c { s.chan c with tx := u } s.ev := rfl

/-! ## The test that a disable during the slot left outstanding (R93) -/

/-- A transmit unit after that test, with tx_enable 0. -/
def TxUnit.tested (u : TxUnit) : TxUnit :=
  if u.testDue && u.sending then { u with testDue := false, abortOwed := true, sending := false, offset := 0 }
  else { u with testDue := false }

theorem tested_of_not_due {u : TxUnit} (h : u.testDue = false) : u.tested = u := by
  rw [TxUnit.tested, h, if_neg (by simp)]
  rw [← h]

theorem outstandingTest_eq {c : Chan} {on : Bool} {s : State} (h : (s.chan c).tx.testDue = false ∨ on = false) :
    outstandingTest c on s = s.setTx c (s.chan c).tx.tested := by
  by_cases hdue : (s.chan c).tx.testDue = true
  · have hon : on = false := h.resolve_left (by rw [hdue]; decide)
    have htested : (s.chan c).tx.tested = if (s.chan c).tx.sending
        then { (s.chan c).tx with testDue := false, abortOwed := true, sending := false, offset := 0 }
        else { (s.chan c).tx with testDue := false } := by rw [TxUnit.tested, hdue, Bool.true_and]
    rw [outstandingTest, if_pos hdue, hon, if_neg (by decide), htested]
    rfl
  · rw [tested_of_not_due (Bool.not_eq_true _ |>.mp hdue), outstandingTest, if_neg hdue]
    exact (setChan_self s c).symm

/-! ## The result at the two units (R11) -/

/-- A transmit unit whose word in flight has come back. -/
def TxUnit.landed (u : TxUnit) : TxUnit := { u with flight := none }

/-- The echo result applied to the word in flight, before the outstanding test (R83 to R88). -/
def State.echoed (s : State) (c : Chan) (f : TxFlight) (ok : Bool) : State :=
  let s1 := s.setTx c (s.chan c).tx.landed
  if ok then matchedEcho c f s1 else if (s.chan c).cfg.tx then collide c f s1 else strayEcho c s1

theorem txEcho_eq {s : State} {c : Chan} {f : TxFlight} (h : (s.chan c).tx.flight = some f) (ok : Bool) :
    txEcho c ok s = outstandingTest c (s.chan c).cfg.tx (s.echoed c f ok) := by
  rw [txEcho, h]
  rfl

/-- A word that has come back where the outstanding test is not open: the unit is tested and the flow unit told. -/
theorem reportEcho_eq {s : State} {c : Chan} {f : TxFlight} {ok : Bool} {z : Channel} {e : EventUnit}
    (hflight : (s.chan c).tx.flight = some f) (hz : s.echoed c f ok = s.leaving c z e)
    (ht : z.tx.testDue = false ∨ (s.chan c).cfg.tx = false) :
    reportEcho c ok s = s.leaving c { z with tx := z.tx.tested, fl := z.fl.echo ok } e := by
  have htest : txEcho c ok s = s.leaving c { z with tx := z.tx.tested } e := by
    rw [txEcho_eq hflight, hz, outstandingTest_eq (by rw [leaving_chan]; exact ht), leaving_chan, leaving_setTx]
  rw [reportEcho, htest, leaving_chan, leaving_setFl]

/-- A TX slot with its eleven bits reports its echo, and the next slot begins. -/
theorem exec_echo_over {x : Slot} {w : SlotWord} {s : State} (hs : s.resetn = true) (hslot : s.slot = .inSlot x)
    (hwork : x.work = .tx) (hword : x.word = some w) (hbits : x.bits.length = 11) {t : State}
    (ht : reportEcho x.entry.chan (decide (x.bits = wordBits w)) s = t) (hmap : t.map = s.map) :
    exec .echoResult s = .next { t with slot := s.slotAfter x.number } := by
  have hexec : exec .echoResult s = .next (echoStep s) := congrArg _ (outOfReset_high _ hs)
  have hstep : echoStep s = advanceSlot x.number t := by
    rw [echoStep, hslot]
    dsimp only
    rw [hword, ← ht]
    exact if_pos (by rw [decide_eq_true hwork, decide_eq_true hbits]; rfl)
  rw [hexec, hstep, advanceSlot_eq, slotAfter_congr hmap]

theorem channel_fields {y z : Channel} (h : y = z) : (y.tx = z.tx ∧ y.fl = z.fl) ∧
    (y.cfg = z.cfg ∧ y.rx = z.rx ∧ y.sticky = z.sticky ∧ y.peer = z.peer ∧ y.held = z.held) := by
  subst h
  exact ⟨⟨rfl, rfl⟩, rfl, rfl, rfl, rfl, rfl⟩

/-- The end of a TX slot of which the echo leaves channel c as z and the event unit as e. -/
theorem echo_ends {x : Slot} {w : SlotWord} {f : TxFlight} {s : State} (hs : s.resetn = true) (hslot : s.slot = .inSlot x)
    (hwork : x.work = .tx) (hword : x.word = some w) (hbits : x.bits.length = 11) {ok : Bool}
    (hok : decide (x.bits = wordBits w) = ok) {z : Channel} {e : EventUnit}
    (hflight : (s.chan x.entry.chan).tx.flight = some f) (hz : s.echoed x.entry.chan f ok = s.leaving x.entry.chan z e)
    (ht : z.tx.testDue = false ∨ (s.chan x.entry.chan).cfg.tx = false) :
    ∃ t, exec .echoResult s = .next t ∧ onlyChannel x.entry.chan s t ∧ t.slot = s.slotAfter x.number ∧ t.ev = e ∧
      ((t.chan x.entry.chan).tx = z.tx.tested ∧ (t.chan x.entry.chan).fl = z.fl.echo ok) ∧
      ((t.chan x.entry.chan).cfg = z.cfg ∧ (t.chan x.entry.chan).rx = z.rx ∧ (t.chan x.entry.chan).sticky = z.sticky ∧
        (t.chan x.entry.chan).peer = z.peer ∧ (t.chan x.entry.chan).held = z.held) ∧
      { t with chans := s.chans, slot := s.slot, ev := s.ev } = s := by
  subst hok
  have hmap : (s.leaving x.entry.chan { z with tx := z.tx.tested, fl := z.fl.echo (decide (x.bits = wordBits w)) } e).map = s.map :=
    rfl
  have hexec := exec_echo_over hs hslot hwork hword hbits (reportEcho_eq hflight hz ht) hmap
  obtain ⟨hunits, hrest⟩ :=
    channel_fields (leaving_chan s x.entry.chan { z with tx := z.tx.tested, fl := z.fl.echo (decide (x.bits = wordBits w)) } e)
  exact ⟨_, hexec, onlyChannel_setChan rfl, rfl, rfl, hunits, hrest, rfl⟩

/-! ## A flow word's echo (R149) -/

theorem echo_matched (u : FlowUnit) : u.echo true = { u with flight := none } := by
  unfold FlowUnit.echo
  split
  · next h => exact congrArg (fun f => { u with flight := f }) h
  · rw [Bool.not_true, Bool.false_and, Bool.or_false]
  · rw [Bool.not_true, Bool.false_and, Bool.or_false]

theorem echo_mismatched (u : FlowUnit) : u.echo false = { u with
    flight := none
    pauseOwed := u.pauseOwed || (decide (u.flight = some .pause) && u.asserted)
    resumeOwed := u.resumeOwed || (decide (u.flight = some .resume) && !u.asserted) } := by
  unfold FlowUnit.echo
  split
  · next h =>
    simp only [h, reduceCtorEq, decide_false, Bool.false_and, Bool.or_false]
    exact congrArg (fun f => { u with flight := f }) h
  · next h => simp [h]
  · next h => simp [h]

end Sys2Proof.Machine
end

section
/-! PROOFS. What a matched echo does for each word in flight (spec 05, R83 to R85), and a mismatch with tx_enable 0 (R86). -/

namespace Sys2Proof.Machine

open Sys2Proof

/-! ## A matched word -/

/-- The transmit unit after the matched echo of f (R72, R83 to R85). -/
def TxUnit.matched (u : TxUnit) (f : TxFlight) : TxUnit :=
  if f.kind = .abort then
    if u.dropAfter then
      { u with
        records := u.records.tail, sending := false, offset := 0
        abortOwed := false, dropAfter := false, r := 0, lastDrop := .restarts }
    else { u with abortOwed := false }
  else u.matchedMessage f

/-- The event unit after it: an ABORT with drop_after_abort reports the drop (R84, R98). -/
def State.evMatched (s : State) (c : Chan) (f : TxFlight) : EventUnit :=
  if f.kind = .abort ∧ (s.chan c).tx.dropAfter = true then (raiseDropped c .restarts s).ev else s.ev

theorem matchedEcho_of_not_abort {c : Chan} {f : TxFlight} {s : State} (h : f.kind ≠ .abort) :
    matchedEcho c f s = s.setTx c ((s.chan c).tx.matchedMessage f) := by
  unfold matchedEcho
  split
  · next hk => exact absurd hk h
  · rfl

theorem matchedEcho_of_abort {c : Chan} {f : TxFlight} {s : State} (h : f.kind = .abort) :
    matchedEcho c f s = abortMatched c s := by
  unfold matchedEcho
  rw [h]

theorem abortMatched_leaving (c : Chan) (s : State) (z : Channel) (e : EventUnit) : abortMatched c (s.leaving c z e) =
    if z.tx.dropAfter then
      raiseDropped c .restarts (s.leaving c { z with tx := { z.tx with
        records := z.tx.records.tail, sending := false, offset := 0
        abortOwed := false, dropAfter := false, r := 0, lastDrop := .restarts } } e)
    else s.leaving c { z with tx := { z.tx with abortOwed := false } } e := by
  rw [abortMatched]
  dsimp only
  rw [leaving_chan, leaving_setTx, leaving_setTx]
  split
  · rw [reportDrop, leaving_chan, leaving_setTx]
    rfl
  · rfl

theorem echoed_matched (s : State) (c : Chan) (f : TxFlight) :
    s.echoed c f true = s.leaving c { s.chan c with tx := (s.chan c).tx.landed.matched f } (s.evMatched c f) := by
  have hstart : s.echoed c f true = matchedEcho c f (s.leaving c { s.chan c with tx := (s.chan c).tx.landed } s.ev) := rfl
  rw [hstart, TxUnit.matched, State.evMatched]
  by_cases hk : f.kind = .abort
  · rw [matchedEcho_of_abort hk, abortMatched_leaving, if_pos hk]
    by_cases hdrop : (s.chan c).tx.dropAfter = true
    · have hlanded : (s.chan c).tx.landed.dropAfter = true := hdrop
      have hboth : f.kind = .abort ∧ (s.chan c).tx.dropAfter = true := ⟨hk, hdrop⟩
      simp only [hlanded, if_true, if_pos hboth]
      rfl
    · have hlanded : ¬ (s.chan c).tx.landed.dropAfter = true := hdrop
      have hboth : ¬ (f.kind = .abort ∧ (s.chan c).tx.dropAfter = true) := fun h => hdrop h.2
      simp only [if_neg hlanded, if_neg hboth]
  · rw [matchedEcho_of_not_abort hk, leaving_chan, leaving_setTx, if_neg hk, if_neg fun h => hk h.1]

theorem matched_testDue (u : TxUnit) (f : TxFlight) : (u.landed.matched f).testDue = u.testDue := by
  unfold TxUnit.matched TxUnit.matchedMessage
  split_ifs
  · rfl
  · rfl
  · split
    · rfl
    · rfl
    · rfl
    · rfl

theorem matched_data {f : TxFlight} {o : Nat} (h : f.kind = .data o) (u : TxUnit) :
    u.matched f = if f.orphan then { u with abortOwed := true } else { u with offset := u.offset + 1 } := by
  rw [TxUnit.matched, if_neg (by rw [h]; exact TxKind.noConfusion), TxUnit.matchedMessage, h]
  cases f.orphan <;> rfl

theorem matched_last {f : TxFlight} {o : Nat} (h : f.kind = .last o) (u : TxUnit) : u.matched f =
    if f.orphan then u else { u with records := u.records.tail, sending := false, offset := 0, r := 0, coll := 0 } := by
  rw [TxUnit.matched, if_neg (by rw [h]; exact TxKind.noConfusion), TxUnit.matchedMessage, h]
  cases f.orphan <;> rfl

theorem matched_abort_kept {f : TxFlight} {u : TxUnit} (h : f.kind = .abort) (hd : u.dropAfter = false) :
    u.matched f = { u with abortOwed := false } := (if_pos h).trans (if_neg (Bool.eq_false_iff.mp hd))

theorem matched_abort_drops {f : TxFlight} {u : TxUnit} (h : f.kind = .abort) (hd : u.dropAfter = true) : u.matched f =
    { u with
      records := u.records.tail, sending := false, offset := 0
      abortOwed := false, dropAfter := false, r := 0, lastDrop := .restarts } := (if_pos h).trans (if_pos hd)

theorem matched_wordless {f : TxFlight} (h : f.kind = .idle ∨ f.kind = .pause ∨ f.kind = .resume) (u : TxUnit) :
    u.matched f = u := by
  rcases h with h | h | h
  · rw [TxUnit.matched, if_neg (by rw [h]; decide), TxUnit.matchedMessage, h]
  · rw [TxUnit.matched, if_neg (by rw [h]; decide), TxUnit.matchedMessage, h]
  · rw [TxUnit.matched, if_neg (by rw [h]; decide), TxUnit.matchedMessage, h]

theorem evMatched_of_not_abort {s : State} {c : Chan} {f : TxFlight} (h : f.kind ≠ .abort) : s.evMatched c f = s.ev :=
  if_neg fun hab => h hab.1

/-- The outstanding test, made or not by the flag of another unit that has the same one. -/
theorem tested_eq {u : TxUnit} {due : Bool} (h : u.testDue = due) : u.tested =
    if due && u.sending then { u with testDue := false, abortOwed := true, sending := false, offset := 0 }
    else { u with testDue := false } := by
  rw [TxUnit.tested, h]

/-- Settles O32. -/
theorem matchedEchoIsApplied : Obligations.MatchedEchoIsApplied := by
  unfold Obligations.MatchedEchoIsApplied
  intro x w f s hs hslot hwork hword hbits c y hflight hopen
  obtain ⟨t, hexec, honly, hnext, hev, ⟨htx, hfl⟩, ⟨hcfg, hrx, hsticky, hpeer, hheld⟩, hframe⟩ :=
    echo_ends hs hslot hwork hword (by rw [hbits]; exact wordBits_length w) (decide_eq_true hbits) hflight
      (echoed_matched s c f) (hopen.imp_left fun h => (matched_testDue (s.chan c).tx f).trans h)
  refine ⟨t, hexec, honly, hnext, hfl.trans (echo_matched _), hcfg, hrx, hsticky, hpeer, hheld, hframe, ?_⟩
  have htested := htx.trans (tested_eq (matched_testDue y.tx f))
  refine ⟨fun o hk => ⟨?_, ?_⟩, fun o hk => ⟨?_, ?_⟩, fun hk hdrop => ⟨?_, ?_⟩, fun hk hdrop => ⟨?_, ?_⟩, fun hk => ⟨?_, ?_⟩⟩
  · exact hev.trans (evMatched_of_not_abort (by rw [hk]; exact TxKind.noConfusion))
  · rw [htested, matched_data hk]
    rfl
  · exact hev.trans (evMatched_of_not_abort (by rw [hk]; exact TxKind.noConfusion))
  · rw [htested, matched_last hk]
    rfl
  · exact hev.trans (if_neg fun h => Bool.eq_false_iff.mp hdrop h.2)
  · rw [htested, matched_abort_kept (u := y.tx.landed) hk hdrop]
    rfl
  · have hdropped := hev.trans (if_pos ⟨hk, hdrop⟩)
    rw [droppedOnly, hdropped]
    exact raiseDropped_droppedOnly c .restarts s
  · rw [htested, matched_abort_drops (u := y.tx.landed) hk hdrop]
    rfl
  · refine hev.trans (evMatched_of_not_abort ?_)
    rcases hk with hk | hk | hk <;> rw [hk] <;> decide
  · rw [htested, matched_wordless hk]
    rfl

/-! ## A mismatch with tx_enable 0 -/

theorem echoed_stray {s : State} {c : Chan} (f : TxFlight) (h : (s.chan c).cfg.tx = false) :
    s.echoed c f false = s.leaving c { s.chan c with
      tx := (s.chan c).tx.landed, sticky := { (s.chan c).sticky with strayEcho := true } } s.ev := by
  have hstart : s.echoed c f false = strayEcho c (s.setTx c (s.chan c).tx.landed) := by
    rw [State.echoed, h]
    rfl
  rw [hstart, strayEcho, setSticky_eq, setTx_eq, chan_setChan_same, setChan_setChan]
  rfl

/-- The outstanding test restarts a head that is SENDING, uncounted (R90, R93). -/
theorem tested_restarts (u : TxUnit) : u.tested = { u with
    testDue := false
    abortOwed := u.abortOwed || (u.testDue && u.sending)
    sending := u.sending && !(u.testDue && u.sending)
    offset := if u.testDue && u.sending then 0 else u.offset } := by
  rw [TxUnit.tested]
  cases hdue : u.testDue && u.sending with
  | true => simp
  | false => simp

/-- Settles O34. -/
theorem strayEchoIsNoCollision : Obligations.StrayEchoIsNoCollision := by
  unfold Obligations.StrayEchoIsNoCollision
  intro x w f s hs hslot hwork hword hlen hbits c y hflight hoff
  obtain ⟨t, hexec, honly, -, hev, ⟨htx, hfl⟩, ⟨hcfg, hrx, hsticky, hpeer, hheld⟩, hframe⟩ :=
    echo_ends hs hslot hwork hword hlen (decide_eq_false hbits) hflight (echoed_stray f hoff) (.inr hoff)
  refine ⟨t, hexec, honly, hsticky, hcfg, hrx, hpeer, hheld, htx.trans ?_, hfl.trans (echo_mismatched _), ?_⟩
  · exact tested_restarts _
  · rw [← hev] at hframe
    exact hframe

end Sys2Proof.Machine
end

section
/-! PROOFS. A collision (spec 05, R72, R87, R88). -/

namespace Sys2Proof.Machine

open Sys2Proof

/-- Step 2 of R87 for the word in flight, in one equation. -/
theorem collided_eq (u : TxUnit) (f : TxFlight) (limit : Nat) : u.collided f limit =
    let counted := f.kind.isMessage && !f.orphan
    { u with
      r := if counted then u.r + 1 else u.r
      abortOwed := u.abortOwed || f.kind.isMessage
      sending := u.sending && !counted
      offset := if counted then 0 else u.offset
      dropAfter := u.dropAfter || (counted && decide (limit < u.r + 1)) } := by
  unfold TxUnit.collided
  cases f.kind.isMessage with
  | false => simp
  | true =>
    cases f.orphan with
    | true => simp
    | false => simp [TxUnit.countedRestart]

/-- A transmit unit whose word has come back with a collision, counted and nothing else done (step 1 of R87). -/
def TxUnit.risen (u : TxUnit) : TxUnit := { u.landed with coll := u.coll + 1 }

/-- The channel after a collision: the counter and the restart, and the shutdown where the limit is reached (R87, R88). -/
def Channel.collides (x : Channel) (f : TxFlight) : Channel :=
  let stops := decide (x.cfg.collLimit ≤ x.tx.coll + 1)
  { x with
    cfg := { x.cfg with tx := !stops }
    tx := { x.tx.risen.collided f x.cfg.restartLimit with
      coll := if stops then 0 else x.tx.coll + 1 } }

/-- The event unit after a collision. -/
def State.evCollides (s : State) (c : Chan) : EventUnit :=
  if (s.chan c).cfg.collLimit ≤ (s.chan c).tx.coll + 1 then (raise (.txShutdown c) s).ev else s.ev

theorem collided_coll (u : TxUnit) (f : TxFlight) (limit : Nat) : (u.collided f limit).coll = u.coll := by
  rw [collided_eq]

theorem leaving_setChan (s : State) (c : Chan) (z y : Channel) (e : EventUnit) :
    (s.leaving c z e).setChan c y = s.leaving c y e := by
  have h : (s.leaving c z e).setChan c y = { (s.setChan c z).setChan c y with ev := e } := rfl
  rw [h, setChan_setChan]
  rfl

theorem withTx_self {g : ChanCfg} (h : g.tx = true) : { g with tx := !false } = g := congrArg (fun b => { g with tx := b }) h.symm

theorem echoed_collides {s : State} {c : Chan} (f : TxFlight) (h : (s.chan c).cfg.tx = true) :
    s.echoed c f false = s.leaving c ((s.chan c).collides f) (s.evCollides c) := by
  have hstart : s.echoed c f false = collide c f (s.leaving c { s.chan c with tx := (s.chan c).tx.landed } s.ev) := by
    rw [State.echoed, h]
    rfl
  rw [hstart, collide]
  dsimp only
  rw [leaving_chan, leaving_setTx, leaving_chan, collided_coll]
  by_cases hstops : (s.chan c).cfg.collLimit ≤ (s.chan c).tx.coll + 1
  · rw [if_pos (by exact hstops), State.evCollides, if_pos hstops, Channel.collides, decide_eq_true hstops]
    rw [shutdown, leaving_chan, leaving_setChan]
    rfl
  · rw [if_neg (by exact hstops), State.evCollides, if_neg hstops, Channel.collides, decide_eq_false hstops, withTx_self h]
    exact congrArg (fun n => s.leaving c { s.chan c with
        tx := { (s.chan c).tx.risen.collided f (s.chan c).cfg.restartLimit with coll := n } } s.ev)
      (collided_coll (s.chan c).tx.risen f (s.chan c).cfg.restartLimit)

theorem collides_tx (x : Channel) (f : TxFlight) : (x.collides f).tx =
    let counted := f.kind.isMessage && !f.orphan
    { x.tx with
      flight := none
      coll := if x.cfg.collLimit ≤ x.tx.coll + 1 then 0 else x.tx.coll + 1
      r := if counted then x.tx.r + 1 else x.tx.r
      abortOwed := x.tx.abortOwed || f.kind.isMessage
      sending := x.tx.sending && !counted
      offset := if counted then 0 else x.tx.offset
      dropAfter := x.tx.dropAfter || (counted && decide (x.cfg.restartLimit < x.tx.r + 1)) } := by
  rw [Channel.collides, collided_eq]
  simp only [decide_eq_true_eq]
  rfl

/-- Settles O33. -/
theorem collisionClimbsTheLadder : Obligations.CollisionClimbsTheLadder := by
  unfold Obligations.CollisionClimbsTheLadder
  intro x w f s hs hslot hwork hword hlen hbits c y hflight hdue hon
  have hkept : (y.collides f).tx.testDue = false := by
    rw [Channel.collides, collided_eq]
    exact hdue
  obtain ⟨t, hexec, honly, -, hev, ⟨htx, hfl⟩, ⟨hcfg, hrx, hsticky, hpeer, hheld⟩, hframe⟩ :=
    echo_ends hs hslot hwork hword hlen (decide_eq_false hbits) hflight (echoed_collides f hon) (.inl hkept)
  rw [tested_of_not_due hkept] at htx
  refine ⟨t, hexec, honly, htx.trans ?_, hcfg, ?_, hfl.trans (echo_mismatched _), hrx, hpeer, hsticky, hheld, hframe⟩
  · rw [collides_tx]
    cases hk : f.kind <;> rfl
  · rw [State.evCollides] at hev
    split at hev
    · next hstops => rw [if_pos hstops]; exact raisedOnly_raise hev
    · next hstops => rw [if_neg hstops]; exact raisedOnly_nil hev

end Sys2Proof.Machine
end
